-- ==== Sys2Proof/Word.lean ====
section
/-!
DEFINITION. The words of the WPM-216: bytes, addresses, positions, frame numbers, sequences, and the
values a wire or a strap can have (spec/00_scope.md sections 2 and 5).
-/

namespace Sys2Proof

/-- A byte of the local port, of frame memory or of the line (00 section 5.4: bit 7 is the MSB). -/
abbrev Byte := BitVec 8

/-- An address of the 4 KiB local window (09 section 9.2). -/
abbrev Addr := BitVec 12

/-- The tag of a frame, 16 bits (01 Table 1-1). -/
abbrev Tag := BitVec 16

/-- A line position 0-15; "next" is modulo 16 (00 section 5.2). -/
abbrev Pos := Fin 16

/-- A frame number 0-47 (00 section 5.2). -/
abbrev FrameNo := Fin 48

/-- A sequence number 0-7; "next" is modulo 8 (00 section 5.2). -/
abbrev Seq := Fin 8

/-- The sixteen cells of a PRESENCE, JOIN or CLAIM field: bit p is the data bit of cell p, 1 for a cell that
reads HIGH or is released, 0 for one that reads LOW or is driven (00 section 5.1). The line is the bitwise
AND of what the stations leave. -/
abbrev Cells := BitVec 16

/-- What a wire reads (00 section 5.1). -/
inductive Level where
  | low
  | high
deriving DecidableEq, Repr

/-- The two wires of the line (00 section 1.1). -/
inductive Wire where
  | wclk
  | wdat
deriving DecidableEq, Repr

/-- A cell as the other stations make it: for how many cell-times they hold WCLK low, and the level of WDAT that they
leave at its rise (08 R140, R141). -/
structure MarkRead where
  lowPhase : Nat
  others : Level
deriving DecidableEq, Repr

/-- The strap pins POS, CREDIT and RATE (00 Table 0-3). -/
structure Straps where
  pos : Pos
  credit : Fin 4
  rate : Fin 4
deriving DecidableEq, Repr

end Sys2Proof
end

