-- ==== Sys2Proof/Syntax.lean ====
section
/-!
DEFINITION. The commands of the WPM-216: one constructor per row of spec/opcode_table.json, in the table's order.

A port command carries what the local processor shifts in. A line command carries what the OTHER stations put on
the line: the value read is their drive wired-AND this station's own (00 section 5.1; log 2). `none` as the start
of a byte command means the next byte of the transaction in progress, `some a` the first data byte of a new
transaction at address a (09 R150; log 10).
-/

namespace Sys2Proof

inductive Instr where
  /-- TAKE (R154). -/
  | take
  /-- POP_INBOUND (R16). -/
  | popInbound
  /-- POP_COMPLETION (R155). -/
  | popCompletion
  /-- POST (R10): the byte written. -/
  | post (n : Byte)
  /-- RELEASE (R17): the byte written. -/
  | release (n : Byte)
  /-- CANCEL (R12): the byte written. -/
  | cancel (n : Byte)
  /-- DOZE (R165). -/
  | doze
  /-- RESUME (R166). -/
  | resume
  /-- REJOIN (R158). -/
  | rejoin
  /-- SOFT_RESET (R159). -/
  | softReset
  /-- BAD_COMMAND (R157): the command code written. -/
  | badCommand (code : Byte)
  /-- EVENT_CLEAR (R162): the byte written. -/
  | eventClear (v : Byte)
  /-- REGISTER_WRITE (R152). -/
  | registerWrite (start : Option Addr) (v : Byte)
  /-- FRAME_MEMORY_READ (R19). -/
  | frameMemoryRead (start : Option Addr)
  /-- FRAME_MEMORY_WRITE (R19). -/
  | frameMemoryWrite (start : Option Addr) (v : Byte)
  /-- TRANSACTION_END (R150). -/
  | transactionEnd
  /-- RESET_ASSERT (R137). -/
  | resetAssert
  /-- RESET_RELEASE (R100): the levels on the strap pins. -/
  | resetRelease (straps : Straps)
  /-- BOUNDARY (R102). -/
  | boundary
  /-- FAULT_RECOVERY (R107). -/
  | faultRecovery
  /-- STUCK_LINE (R147): the wire that stays low. -/
  | stuckLine (wire : Wire)
  /-- ROUND_STOPPED (R103). -/
  | roundStopped
  /-- OPEN (R108). -/
  | openRound
  /-- OPEN_COMPLETE (R143). -/
  | openComplete
  /-- OPEN_SEEN (R144). -/
  | openSeen
  /-- ROUND_START (R109). -/
  | roundStart
  /-- OPEN_ABANDONED (R145). -/
  | openAbandoned
  /-- STRAY_CLOCK_FALL (R145). -/
  | strayClockFall
  /-- SWEEP_RUN_OUT (R110). -/
  | sweepRunOut
  /-- LEAD_FIELD_END (R111): the four cells as the other stations leave them, most significant first. -/
  | leadFieldEnd (others : BitVec 4)
  /-- OWN_PRESENCE_CELL_LOW (R103). -/
  | ownPresenceCellLow
  /-- PRESENCE_FIELD_END (R84): the sixteen cells as the other stations leave them. -/
  | presenceFieldEnd (others : Cells)
  /-- JOIN_FIELD_END (R113): the sixteen cells as the other stations leave them. -/
  | joinFieldEnd (others : Cells)
  /-- OWN_CLAIM_CELL (R114): the cell as the other stations leave it. -/
  | ownClaimCell (others : Level)
  /-- CLAIM_FIELD_END (R115): the sixteen cells as the other stations leave them. -/
  | claimFieldEnd (others : Cells)
  /-- WINDOW_START (R31). -/
  | windowStart
  /-- COLLISION (R130): the released cell of the own window that reads LOW. -/
  | collision (cell : Nat)
  /-- EMPTY_SETTLEMENT (R39). -/
  | emptySettlement
  /-- HEADER_END (R124): the header bytes as the other stations leave them; a byte not listed is released. -/
  | headerEnd (bytes : List Byte)
  /-- MARK_CELL (R128): cell 56 as the other stations make it. -/
  | markCell (read : MarkRead)
  /-- FRAME_CHECK_END (R51): the payload bytes and the frame check on the line, in the own window as the other stations
  leave them; a byte not listed is released. -/
  | frameCheckEnd (payload : List Byte) (check : BitVec 16)
  /-- ANSWER_DRIVE (R134). -/
  | answerDrive
  /-- OUTCOME (R33): answer cells A and B as the readers leave them. -/
  | outcome (a b : Level)
  /-- CARRY_DRIVE (R117). -/
  | carryDrive
  /-- CHAINED_ROUND_START (R118). -/
  | chainedRoundStart
  /-- ROUND_END (R119). -/
  | roundEnd
  /-- WINDOW_END (R115). -/
  | windowEnd
deriving DecidableEq, Repr

end Sys2Proof
end

