-- ==== Sys2Proof/Decode.lean ====
section
/-!
DEFINITION. The table gives no row any bits (spec/98_reader.md: n_rows_with_fixed 0, n_rows_with_fields 0), so no
word spells a command (log 33).
-/

namespace Sys2Proof

/-- The command that a word of `nbits` bits spells by the table: none, for every word. -/
def decodeTableWord (_nbits _w : Nat) : Option Instr := none

end Sys2Proof
end

