-- ==== Sys2Proof/Config.lean ====
section
/-!
DEFINITION. What the part fixes (spec/00_scope.md Table 0-4, spec/08 Table 8-4) and the one value the manual
leaves open.
-/

namespace Sys2Proof.Config

/-- FREE VALUE (log 7). The byte that frame memory holds at an address nothing has written since the pin reset
numbered by the first argument: "After a pin reset that content is undefined" (01 R1, R20). No body: no proof can
see which byte it is, and it is the same byte at every read until the address is written. -/
opaque undefinedByte : Nat → Nat → Byte

/-- Frame memory, 3072 bytes (01 R1). -/
def frameMemoryBytes : Nat := 3072
/-- Bytes of one frame (01 R1). -/
def frameBytes : Nat := 64
/-- Payload bytes of one frame, and the largest length (01 section 1.1). -/
def maxLength : Nat := 56
/-- Outbound-owned limit (01 R7). -/
def outboundLimit : Nat := 32
/-- Attempts before a peer is lost (02 R37). -/
def maxAttempts : Nat := 4
/-- Missed presence rounds before loss (05 R85). -/
def maxMissed : Nat := 3
/-- Collision streak that leads to CONFLICT (07 R131). -/
def maxStreak : Nat := 3
/-- Chain limit in rounds (06 R117, R118). -/
def chainLimit : Nat := 8
/-- OPEN duration in cell-times (08 R143). -/
def openDuration : Nat := 8
/-- Boundary recognition in cell-times (06 R102). -/
def boundary : Nat := 24
/-- Settle gap before OPEN in cell-times (06 R108); the idle-time count stops here (08 R142). -/
def settleGap : Nat := 32
/-- Sweep interval in cell-times (06 R110). -/
def sweepInterval : Nat := 65536
/-- The clock-low count is stuck above this (08 R147). -/
def clockStuckAbove : Nat := 256
/-- The data-low count is stuck above this (08 R147). -/
def dataStuckAbove : Nat := 64
/-- The cell timer saturates at the mark hold (08 Table 8-1). -/
def cellTimerMax : Nat := 4
/-- A marking station's hold of WCLK in cell-times (08 R141). -/
def markHold : Nat := 4
/-- A low phase of this many cell-times or more is stretched (08 R141). -/
def stretchThreshold : Nat := 2
/-- Cells of an EMPTY window (07 Table 7-2). -/
def emptyWindow : Nat := 56
/-- Cells of a marked window (07 Table 7-2). -/
def markedWindow : Nat := 523
/-- Cells of a window with a good header and payload length `length` (07 Table 7-2). -/
def frameWindow (length : Nat) : Nat := 8 * length + 75
/-- The further misuse count saturates here (09 R164). -/
def furtherMax : Nat := 255
/-- The none marker (00 Table 0-5). -/
def noneMarker : Byte := 0xFF

end Sys2Proof.Config
end

