-- ==== Sys2Proof/Machine/State.lean ====
section
/-!
DEFINITION. The state of one WPM-216: the nine blocks of spec/00_scope.md Table 0-1, each as a structure, as plain
data, with the queue of waiting commands. INVENTORY.md lists every field with its rule and its reset value.
-/

namespace Sys2Proof.Machine

/-- No behaviour of the part stops it: a misuse is recorded (09 R164) and a stuck line leads to the participation
state FAULT (06 R107). The type is empty: no meaning can raise a fault (log 27). -/
inductive Fault where
deriving DecidableEq, Repr

/-- Why a command has no outcome. -/
inductive Refusal where
  /-- Raised by exec for a row that has no meaning yet; safe. No row is in that case. -/
  | notModelled (mnemonic : String)
deriving DecidableEq, Repr

/-! ## Line Interface (08) -/

/-- Where the station stands in the current cell, when it takes part in the clock (08 Table 8-1). -/
inductive CellPhase where
  | none
  | low
  | high
deriving DecidableEq, Repr

/-- 08 Table 8-1, with the wires as read and the OPEN count of 08 R143. The stuck condition is `lineStuck`. -/
structure Lif where
  straps : Straps
  phase : CellPhase
  cellTimer : Nat
  /-- Whether this station pulls WCLK low. -/
  wclkDrive : Bool
  /-- Whether this station pulls WDAT low. -/
  wdatDrive : Bool
  /-- WCLK as last read. -/
  wclk : Level
  /-- WDAT as last read. -/
  wdat : Level
  openSeen : Bool
  /-- The OPEN count while this station holds its own OPEN (08 R143). -/
  openCount : Option Nat
  idle : Nat
  clockLow : Nat
  dataLow : Nat
deriving DecidableEq, Repr

/-! ## Round Controller (06) -/

/-- 06 section 6.2. -/
inductive Participation where
  | listening
  | observing
  | joining
  | member
  | conflict
  | fault
deriving DecidableEq, Repr

/-- 06 Table 6-1, R110. -/
inductive SweepTimer where
  /-- Stopped at 0. -/
  | stopped
  /-- Held at 0 during a round. -/
  | held
  /-- Running, at n cell-times. -/
  | running (n : Nat)
deriving DecidableEq, Repr

/-- Where the station stands in the round (06 Table 6-3, 07 Table 7-2; implied by 05 section 5.2, log 13). -/
inductive Stage where
  /-- No round in progress at this station. -/
  | idle
  | lead
  | presence
  | join
  /-- CLAIM field, own cell not passed. -/
  | claim
  /-- CLAIM field, own cell passed by a MEMBER. -/
  | claimed
  /-- Header cells of the window named by the window index. -/
  | header
  /-- Header read or sent; the window is not sized yet. -/
  | mark
  /-- Payload and frame check of a sized window. -/
  | body
  /-- After the decision, or in the fill of a marked window with nothing left to decide. -/
  | judged
  /-- After the answer cells, or at the end of an EMPTY window as sized. -/
  | answered
  /-- The CARRY cell is next. -/
  | carry
  /-- In the CARRY cell, the drive decided. -/
  | carryCell
deriving DecidableEq, Repr

/-- 06 Table 6-1. -/
structure Rdc where
  participation : Participation
  leadView : Option Pos
  chain : Nat
  /-- The claimants of the round in window order. -/
  claimants : List Pos
  /-- A place in the claimant list. -/
  window : Option Nat
  presence : Cells
  sweep : SweepTimer
  streak : Nat
  joinPending : Bool
  rejoin : Bool
  stage : Stage
  /-- Whether the join round in progress took a rejoin request (05 R94; log 39). -/
  joinFromMember : Bool
deriving DecidableEq, Repr

/-! ## Frames on the line (07) -/

/-- Frame kinds of the line header (11 Table 11-2). -/
inductive Kind where
  | message
  | credit
  | notice
deriving DecidableEq, Repr

/-- Frame classes (11 Table 11-2). -/
inductive FrameClass where
  | urgent
  | routine
deriving DecidableEq, Repr

/-- The fields of a legal header (07 Table 7-1). -/
structure HeaderFields where
  source : Pos
  dest : Pos
  kind : Kind
  cls : FrameClass
  seq : Seq
  grant : Nat
  length : Nat
  tag : Tag
deriving DecidableEq, Repr

/-- 03 Table 3-1. -/
inductive HeaderState where
  | arriving
  | empty
  | good
  | bad
deriving DecidableEq, Repr

/-- 03 Table 3-1. -/
inductive CheckState where
  | arriving
  | good
  | failed
deriving DecidableEq, Repr

/-- The receive staging buffer (03 Table 3-1). -/
structure Staging where
  owner : Pos
  header : List Byte
  headerState : HeaderState
  fields : Option HeaderFields
  payload : List Byte
  checkState : Option CheckState
  valid : Bool
deriving DecidableEq, Repr

/-- The decisions of 03 R50, by the cells they drive (07 R134). -/
inductive Decision where
  | accept
  | refuse
  /-- Both cells: DAMAGED for MESSAGE and CREDIT, and a BAD header. -/
  | damagedBoth
  /-- Cell B alone: DAMAGED for a NOTICE. -/
  | damagedNotice
  | silent
deriving DecidableEq, Repr

/-- What the station sends in its own window: the header under construction (07 R129), the payload read from frame
memory at window start (02 R31), and the cell of the first collision (07 R130). -/
structure Tx where
  header : List Byte
  payload : List Byte
  collidedAt : Option Nat
deriving DecidableEq, Repr

/-! ## Frame Pool (01) -/

/-- Completion outcomes (11 Table 11-6). -/
inductive Completion where
  | delivered
  | refused
  | peerLost
  | peerAbsent
  | malformed
  | cancelled
  | allTaken
  | someTaken
  | noneTaken
  | unheard
  | collided
deriving DecidableEq, Repr

/-- The answer codes, the sender's view (00 section 5.3, 02 R33). -/
inductive Answer where
  | accepted
  | refused
  | damaged
  | silent
  | collided
deriving DecidableEq, Repr

/-- A sequence with its frozen grant: "frozen grant: exactly when sequence is present" (01 Table 1-1). -/
structure OpenSeq where
  seq : Seq
  grant : Nat
deriving DecidableEq, Repr

/-- The record of a QUEUED or SENDING frame (01 Table 1-1). -/
structure Posted where
  cls : FrameClass
  /-- The peer of a MESSAGE; none when the notice flag is set. -/
  peer : Option Pos
  length : Nat
  tag : Tag
  attempts : Nat
  openSeq : Option OpenSeq
  /-- The frame's place in post order (02 R23; log 9). -/
  postNo : Nat
deriving DecidableEq, Repr

/-- The record of a DONE frame (01 Table 1-1, R2; 02 R21 for peer). -/
structure DoneRecord where
  cls : FrameClass
  notice : Bool
  peer : Option Pos
  tag : Tag
  attempts : Nat
  outcome : Completion
deriving DecidableEq, Repr

/-- The record of an ARRIVED or HELD frame (01 Table 1-1). -/
structure InRecord where
  cls : FrameClass
  /-- The source of a MESSAGE; none when the notice flag is set. -/
  peer : Option Pos
  creditBearing : Bool
deriving DecidableEq, Repr

/-- A frame record: the frame's state with the fields that exist in it (01 Table 1-1, R2). The attempts of a FILLING
frame are 0. -/
inductive FrameRecord where
  | free
  | filling
  | queued (p : Posted)
  | sending (p : Posted) (cancelRequested : Bool)
  | done (d : DoneRecord)
  | arrived (r : InRecord)
  | held (r : InRecord)
deriving DecidableEq, Repr

/-- 01: the frame records, the free list, frame memory. -/
structure Fpl where
  frames : Vector FrameRecord 48
  freeList : List FrameNo
  /-- Frame memory, sorted by address; an address not listed has no value (log 7). -/
  mem : List Host.Cell
  /-- The model's own count of pin resets, read with an address that nothing has written (log 8). -/
  memEpoch : Nat
deriving DecidableEq, Repr

/-! ## Outbound Scheduler (02) and Frame Engine -/

/-- What the transmit slot holds (02 R30). -/
inductive Transmission where
  /-- A pool frame in SENDING. -/
  | frame (f : FrameNo)
  /-- A reference to the open credit frame of a peer. -/
  | creditRetry (p : Pos)
  /-- A new credit frame; its sequence and grant stay with it once built (04 R75). -/
  | newCredit (p : Pos) (built : Option OpenSeq)
  | empty
deriving DecidableEq, Repr

/-- What a window start did, so that a mark in the same cell can undo it (07 R128). Each carries the
credit-frame-last flag as it stood. -/
inductive StartUndo where
  /-- A header that took nothing: a NOTICE, a MESSAGE with a sequence, a credit frame retry, EMPTY. -/
  | header (creditLast : Bool)
  /-- A MESSAGE that received its sequence and a grant of k to p. -/
  | grantBuilt (f : FrameNo) (p : Pos) (k : Nat) (creditLast : Bool)
  /-- A frame that the cancel check completed. -/
  | cancelled (f : FrameNo) (was : Posted) (creditLast : Bool)
  /-- A new credit frame to p with grant k; 0 when EMPTY replaced it. -/
  | creditBuilt (p : Pos) (k : Nat) (creditLast : Bool)
deriving DecidableEq, Repr

/-- What the fall of the cell after an EMPTY header did, until the mark of that cell is read (07 R128). -/
structure Undo where
  window : Option Nat
  staging : Staging
  tx : Option Tx
  start : Option StartUndo
deriving DecidableEq, Repr

/-- FEN: the staging buffer and the transmit header (00 Table 0-1), the size of the window on the line, the pending
decision and the answer cells driven. -/
structure Fen where
  staging : Staging
  tx : Option Tx
  size : Option Nat
  decision : Option Decision
  answerA : Bool
  answerB : Bool
  undo : Option Undo
deriving DecidableEq, Repr

/-- 02: the outbound queues, the slot, the completion queue, the credit-frame-last flag. -/
structure Osc where
  urgent : List FrameNo
  routine : List FrameNo
  slot : Option Transmission
  completion : List FrameNo
  creditLast : Bool
  /-- The place in post order that the next post takes (log 9). -/
  nextPost : Nat
deriving DecidableEq, Repr

/-- 03: the inbound queue. The HELD set is the frames whose record is `held`. -/
structure Ibu where
  inbound : List FrameNo
deriving DecidableEq, Repr

/-! ## Peer Table (04, 05) -/

/-- The open credit frame of a peer (04 R77). -/
structure OpenCredit where
  seq : Seq
  grant : Nat
  attempts : Nat
deriving DecidableEq, Repr

/-- A peer entry (05 Table 5-1). -/
structure PeerEntry where
  present : Bool
  missed : Nat
  held : Nat
  owed : Nat
  pending : Nat
  granted : Nat
  sendSeq : Seq
  lastAccepted : Option Seq
  openCredit : Option OpenCredit
deriving DecidableEq, Repr

/-! ## Local Port (09) -/

/-- The four bytes of one peer view entry (11 Table 11-10). -/
structure PeerView where
  b0 : Byte
  b1 : Byte
  b2 : Byte
  b3 : Byte
deriving DecidableEq, Repr

/-- A transaction in progress (09 R150, R160; 05 R99; 01 R19). -/
structure ActiveTxn where
  read : Bool
  addr : Addr
  /-- The sixteen bytes of the status area as captured. -/
  statusCapture : Option (List Byte)
  peerCaptures : List (Pos × PeerView)
  /-- Whether this transaction has reported its frame memory misuse. -/
  refusedReported : Bool
deriving DecidableEq, Repr

/-- The SPI transaction state (09 R150, R151, R159). -/
inductive Txn where
  /-- CS not asserted. -/
  | idle
  /-- CS asserted, and nothing is taken until it has been released. -/
  | blocked
  | active (t : ActiveTxn)
deriving DecidableEq, Repr

/-- The five bytes of the COMPLETION latch (11 Table 11-5). -/
structure CompletionLatch where
  frame : Byte
  outcome : Byte
  attempts : Byte
  tagHigh : Byte
  tagLow : Byte
deriving DecidableEq, Repr

/-- The raw flags of the latched events (09 Table 9-5). -/
structure Latched where
  peer : Bool
  joined : Bool
  line : Bool
  excess : Bool
  misuse : Bool
deriving DecidableEq, Repr

/-- The kinds of misuse (09 R164). -/
inductive MisuseKind where
  | postNotFilling
  | releaseNotHeld
  | cancelNotOutbound
  | writeNotFilling
  | readNotOwned
  | badCommand
deriving DecidableEq, Repr

/-- The first misuse recorded (09 R164). -/
structure Misuse where
  kind : MisuseKind
  frame : Option FrameNo
deriving DecidableEq, Repr

/-- 09: the port, the event unit, the misuse record. -/
structure Lpt where
  txn : Txn
  /-- The byte standing on SDO; none when SDO is not driven. -/
  sdo : Option Byte
  takeLatch : Byte
  inboundLatch : Byte
  completionLatch : CompletionLatch
  latched : Latched
  enable : Byte
  misuse : Option Misuse
  further : Nat
deriving DecidableEq, Repr

/-! ## Wake Unit (10) -/

/-- A wake entry (10 Table 10-1) as the bytes of 11 Table 11-10, with its match counter. -/
structure WakeEntry where
  settings0 : Byte
  settings1 : Byte
  tagValue : BitVec 16
  tagMask : BitVec 16
  counter : Nat
deriving DecidableEq, Repr

/-- 10: the doze flag, the wake entries, the WAKE latch. -/
structure Wku where
  doze : Bool
  entries : Vector WakeEntry 3
  wakeLatch : Bool
deriving DecidableEq, Repr

/-! ## The station -/

structure State where
  /-- Whether RESET is asserted (08 R137). -/
  resetAsserted : Bool
  lif : Lif
  rdc : Rdc
  fen : Fen
  peers : Vector PeerEntry 16
  fpl : Fpl
  osc : Osc
  ibu : Ibu
  lpt : Lpt
  wku : Wku
  /-- The commands that wait, first in, first out. -/
  pending : List Instr
deriving DecidableEq, Repr

/-! ## Reset values -/

/-- 08 R137: both wires released, phase NONE, open seen clear, counts 0. The wires read HIGH (log 6). -/
def Lif.atReset (straps : Straps) : Lif :=
  { straps := straps, phase := .none, cellTimer := 0, wclkDrive := false, wdatDrive := false,
    wclk := .high, wdat := .high, openSeen := false, openCount := none, idle := 0, clockLow := 0, dataLow := 0 }

/-- 06 R100. -/
def Rdc.atReset : Rdc :=
  { participation := .listening, leadView := none, chain := 0, claimants := [], window := none,
    presence := BitVec.allOnes 16, sweep := .stopped, streak := 0, joinPending := false, rejoin := false,
    stage := .idle, joinFromMember := false }

/-- 03 R63: valid clear, no image (log 40). -/
def Staging.atReset : Staging :=
  { owner := 0, header := [], headerState := .arriving, fields := none, payload := [],
    checkState := some .arriving, valid := false }

/-- 07 R129: after a reset no transmit header exists. -/
def Fen.atReset : Fen :=
  { staging := Staging.atReset, tx := none, size := none, decision := none, answerA := false, answerB := false,
    undo := none }

/-- 05 Table 5-1. -/
def PeerEntry.atReset : PeerEntry :=
  { present := false, missed := 0, held := 0, owed := 0, pending := 0, granted := 0, sendSeq := 0,
    lastAccepted := none, openCredit := none }

/-- 01 R20: every frame FREE, the free list 0-47 ascending. -/
def Fpl.atReset (mem : List Host.Cell) (memEpoch : Nat) : Fpl :=
  { frames := Vector.replicate 48 .free, freeList := List.finRange 48, mem := mem, memEpoch := memEpoch }

/-- 02 R47. -/
def Osc.atReset : Osc :=
  { urgent := [], routine := [], slot := none, completion := [], creditLast := false, nextPost := 0 }

/-- 03 R63. -/
def Ibu.atReset : Ibu := { inbound := [] }

/-- 09 Table 9-2: none marker, then outcome, attempts and tag all 0. -/
def CompletionLatch.atReset : CompletionLatch :=
  { frame := Config.noneMarker, outcome := 0, attempts := 0, tagHigh := 0, tagLow := 0 }

/-- 09 Table 9-2. -/
def Latched.atReset : Latched :=
  { peer := false, joined := false, line := false, excess := false, misuse := false }

/-- 09 Table 9-2, with the transaction state the reset leaves. -/
def Lpt.atReset (txn : Txn) (sdo : Option Byte) : Lpt :=
  { txn := txn, sdo := sdo, takeLatch := Config.noneMarker, inboundLatch := Config.noneMarker,
    completionLatch := CompletionLatch.atReset, latched := Latched.atReset, enable := 0, misuse := none,
    further := 0 }

/-- 10 Table 10-1; every wake byte reads 0x00 (11 section 11.5). -/
def WakeEntry.atReset : WakeEntry :=
  { settings0 := 0, settings1 := 0, tagValue := 0, tagMask := 0, counter := 0 }

/-- 10 R165, R167. -/
def Wku.atReset : Wku :=
  { doze := false, entries := Vector.replicate 3 WakeEntry.atReset, wakeLatch := false }

/-- The station after a reset that leaves these straps, this frame memory and this port state. -/
def State.afterReset (straps : Straps) (mem : List Host.Cell) (memEpoch : Nat) (txn : Txn) (sdo : Option Byte)
    (pending : List Instr) : State :=
  { resetAsserted := false, lif := Lif.atReset straps, rdc := Rdc.atReset, fen := Fen.atReset,
    peers := Vector.replicate 16 PeerEntry.atReset, fpl := Fpl.atReset mem memEpoch, osc := Osc.atReset,
    ibu := Ibu.atReset, lpt := Lpt.atReset txn sdo, wku := Wku.atReset, pending := pending }

/-- The machine right after a pin reset with CS released, straps sampled as 0 (log 5), nothing in frame memory, no
command waiting. -/
def State.reset : State :=
  State.afterReset { pos := 0, credit := 0, rate := 0 } [] 0 .idle none []

end Sys2Proof.Machine
end

