-- ==== Sys2Proof/Machine/Ops.lean ====
section
/-!
DEFINITION. The named operations over frame memory, the frame records and the peer entries, the counts derived from
the pool (spec/01 section 1.5), and the latching of events and misuses (spec/09).
-/

namespace Sys2Proof.Machine

/-! ## One setter per block -/

def State.withLif (s : State) (x : Lif) : State := { s with lif := x }
def State.withRdc (s : State) (x : Rdc) : State := { s with rdc := x }
def State.withFen (s : State) (x : Fen) : State := { s with fen := x }
def State.withPeers (s : State) (x : Vector PeerEntry 16) : State := { s with peers := x }
def State.withFpl (s : State) (x : Fpl) : State := { s with fpl := x }
def State.withOsc (s : State) (x : Osc) : State := { s with osc := x }
def State.withIbu (s : State) (x : Ibu) : State := { s with ibu := x }
def State.withLpt (s : State) (x : Lpt) : State := { s with lpt := x }
def State.withWku (s : State) (x : Wku) : State := { s with wku := x }

/-! ## Frame memory -/

/-- The value listed for an address; none where nothing is listed (log 7). -/
def Memory.read (m : List Host.Cell) (a : Nat) : Option Byte :=
  match m with
  | [] => none
  | (k, b) :: rest => if k = a then some b else Memory.read rest a

/-- Write one byte, keeping the addresses strictly rising. An unlisted address has no value, so every value written
is listed. -/
def Memory.write (m : List Host.Cell) (a : Nat) (v : Byte) : List Host.Cell :=
  match m with
  | [] => [(a, v)]
  | (k, b) :: rest =>
    if a < k then (a, v) :: (k, b) :: rest
    else if a = k then (a, v) :: rest
    else (k, b) :: Memory.write rest a v

/-- Write bytes at rising addresses from `a`. -/
def Memory.writeBytes (m : List Host.Cell) (a : Nat) (bytes : List Byte) : List Host.Cell :=
  match bytes with
  | [] => m
  | b :: rest => Memory.writeBytes (Memory.write m a b) (a + 1) rest

/-- The canonical form: addresses strictly rising. -/
def Memory.wf (m : List Host.Cell) : Bool :=
  match m with
  | [] => true
  | [_] => true
  | x :: y :: rest => decide (x.1 < y.1) && Memory.wf (y :: rest)

/-- Every address listed is one of the 3072 of frame memory (01 R1). -/
def Memory.inRange (m : List Host.Cell) : Bool := m.all (fun c => decide (c.1 < Config.frameMemoryBytes))

/-- The byte at an address of frame memory: what is listed, else the undefined content of this pin reset. -/
def State.memByte (s : State) (a : Nat) : Byte :=
  (Memory.read s.fpl.mem a).getD (Config.undefinedByte s.fpl.memEpoch a)

/-- The first address of a frame (01 R1). -/
def frameBase (f : FrameNo) : Nat := Config.frameBytes * f.val

/-- Byte i of a frame. -/
def State.frameByte (s : State) (f : FrameNo) (i : Nat) : Byte := s.memByte (frameBase f + i)

/-- The first `length` payload bytes of a frame (07 R121: payload byte i is frame memory byte 8 + i). -/
def State.payloadBytes (s : State) (f : FrameNo) (length : Nat) : List Byte :=
  (List.range length).map (fun i => s.frameByte f (8 + i))

def State.writeMem (s : State) (a : Nat) (v : Byte) : State :=
  s.withFpl { s.fpl with mem := Memory.write s.fpl.mem a v }

/-! ## Positions and peer entries -/

/-- The own position (08 R138). -/
def State.own (s : State) : Pos := s.lif.straps.pos

/-- C0, the CREDIT strap plus 1 (04 R64). -/
def State.c0 (s : State) : Nat := s.lif.straps.credit.val + 1

/-- Every peer, in ascending position order: the own position is not among them (00 section 5.3). -/
def State.peerPositions (s : State) : List Pos := (List.finRange 16).filter (fun p => p ≠ s.own)

def State.peer (s : State) (p : Pos) : PeerEntry := s.peers[p]

/-- Write a peer entry. The own position's entry is ABSENT at all times and holds its reset values (05 R83): a write
to it is discarded here (log 37). -/
def State.setPeer (s : State) (p : Pos) (e : PeerEntry) : State :=
  if p = s.own then s else s.withPeers (s.peers.set p e)

def State.updPeer (s : State) (p : Pos) (g : PeerEntry → PeerEntry) : State := s.setPeer p (g (s.peer p))

/-! ## Frame records -/

def State.frame (s : State) (f : FrameNo) : FrameRecord := s.fpl.frames[f]

def State.setFrame (s : State) (f : FrameNo) (r : FrameRecord) : State :=
  s.withFpl { s.fpl with frames := s.fpl.frames.set f r }

/-- Change every record by one function. -/
def State.mapFrames (s : State) (g : FrameRecord → FrameRecord) : State :=
  s.withFpl { s.fpl with frames := Vector.ofFn (fun f : FrameNo => g (s.frame f)) }

/-- FILLING, QUEUED, SENDING or DONE (01 R7). -/
def FrameRecord.isOutbound (r : FrameRecord) : Bool :=
  match r with
  | .filling | .queued _ | .sending _ _ | .done _ => true
  | .free | .arrived _ | .held _ => false

def FrameRecord.isFilling (r : FrameRecord) : Bool :=
  match r with
  | .filling => true
  | _ => false

def FrameRecord.isHeld (r : FrameRecord) : Bool :=
  match r with
  | .held _ => true
  | _ => false

/-- An ARRIVED or HELD frame that is credit-bearing, from p (01 R18). -/
def FrameRecord.bearsCreditOf (r : FrameRecord) (p : Pos) : Bool :=
  match r with
  | .arrived i | .held i => i.creditBearing && i.peer == some p
  | _ => false

/-- The FILLING set (01 Table 1-2). -/
def State.fillingSet (s : State) : List FrameNo := (List.finRange 48).filter (fun f => (s.frame f).isFilling)

/-- The HELD set (01 Table 1-2, 03 R61). -/
def State.heldSet (s : State) : List FrameNo := (List.finRange 48).filter (fun f => (s.frame f).isHeld)

/-! ## Pool counts (01 section 1.5) -/

/-- 01 R5. -/
def State.freeCount (s : State) : Nat := s.fpl.freeList.length

/-- 01 R6: the sum over all peers of granted + pending. -/
def State.reserve (s : State) : Nat :=
  ((List.finRange 16).map (fun p => (s.peer p).granted + (s.peer p).pending)).sum

/-- 01 R6. -/
def State.spare (s : State) : Nat := s.freeCount - s.reserve

/-- 01 R7. -/
def State.outboundOwned (s : State) : Nat := (List.finRange 48).countP (fun f => (s.frame f).isOutbound)

/-- The take test, and the TAKE_READY event (01 R8). -/
def State.takeReady (s : State) : Bool := decide (1 ≤ s.spare) && decide (s.outboundOwned < Config.outboundLimit)

/-- The credit-bearing ARRIVED or HELD frames from p (04 R65). -/
def State.creditBearingOf (s : State) (p : Pos) : Nat :=
  (List.finRange 48).countP (fun f => (s.frame f).bearsCreditOf p)

/-! ## Participation -/

/-- The station reads every cell of the round (06 R101). -/
def State.readsLine (s : State) : Bool :=
  match s.rdc.participation with
  | .observing | .joining | .member => true
  | .listening | .conflict | .fault => false

/-- The station drives its lead view and its PRESENCE cell, and takes part in the cell clock (06 R101). -/
def State.drivesLine (s : State) : Bool :=
  match s.rdc.participation with
  | .joining | .member => true
  | .listening | .observing | .conflict | .fault => false

def State.isMember (s : State) : Bool := s.rdc.participation == .member
def State.isObserving (s : State) : Bool := s.rdc.participation == .observing
def State.isJoining (s : State) : Bool := s.rdc.participation == .joining

/-! ## Latched events and misuses (09) -/

/-- 05 R98. -/
def State.latchPeer (s : State) : State :=
  s.withLpt { s.lpt with latched := { s.lpt.latched with peer := true } }
/-- 05 R95. -/
def State.latchJoined (s : State) : State :=
  s.withLpt { s.lpt with latched := { s.lpt.latched with joined := true } }
/-- 09 Table 9-5. -/
def State.latchLine (s : State) : State :=
  s.withLpt { s.lpt with latched := { s.lpt.latched with line := true } }
/-- 04 R71. -/
def State.latchExcess (s : State) : State :=
  s.withLpt { s.lpt with latched := { s.lpt.latched with excess := true } }

/-- 09 R164: the first misuse since the record was emptied is kept, later ones are counted. -/
def State.reportMisuse (s : State) (kind : MisuseKind) (frame : Option FrameNo) : State :=
  match s.lpt.misuse with
  | none =>
    s.withLpt { s.lpt with misuse := some { kind := kind, frame := frame }, further := 0
                           latched := { s.lpt.latched with misuse := true } }
  | some _ =>
    s.withLpt { s.lpt with further := min Config.furtherMax (s.lpt.further + 1)
                           latched := { s.lpt.latched with misuse := true } }

/-! ## Outcomes of commands -/

/-- The outcome of a line command: its effect when the condition of its row holds, and no change when it does not,
since the event then does not occur (log 1). -/
def State.whenDue (s : State) (due : Bool) (after : State) : Host.Outcome State Fault Refusal :=
  .next (if !s.resetAsserted && due then after else s)

end Sys2Proof.Machine
end

