-- ==== Sys2Proof/Machine/Operands.lean ====
section
/-!
DEFINITION. The byte layouts of spec/11: the line header with its checks (spec/07), the frame descriptors, the
completion record.
-/

namespace Sys2Proof.Machine

/-! ## Cells and bytes of the line -/

/-- A data bit as a level: 0 is LOW (07 R121). -/
def levelOf (bit : Bool) : Level := if bit then .high else .low

/-- The first n bytes as the line carries them: a byte that no station sends reads as all HIGH, 0xFF (07 R133;
log 19). -/
def lineBytes (n : Nat) (bytes : List Byte) : List Byte :=
  (List.range n).map (fun i => bytes.getD i 0xFF)

/-- Two stations' drive of the same cells, wired-AND (00 section 5.1). -/
def wiredAnd (a b : List Byte) : List Byte := List.zipWith (fun x y => x &&& y) a b

/-- Seven bytes of 0xFF (07 R121, R124). -/
def emptyHeader : List Byte := [0xFF, 0xFF, 0xFF, 0xFF, 0xFF, 0xFF, 0xFF]

/-- The cells of a field as a station at p leaves them that drives its own cell, or none. -/
def ownCell (drives : Bool) (p : Pos) : Cells :=
  if drives then ~~~((1 : BitVec 16) <<< p.val) else BitVec.allOnes 16

/-- Whether cell p reads LOW. -/
def cellLow (cells : Cells) (p : Pos) : Bool := !cells.getLsbD p.val

/-! ## Checks -/

/-- One bit of the header check register: polynomial 0x07 (07 R123). -/
def crc8Bit (r : Byte) (bit : Bool) : Byte :=
  if r.msb != bit then (r <<< 1) ^^^ 0x07 else r <<< 1

/-- One bit of the frame check register: polynomial 0x1021 (07 R125). -/
def crc16Bit (r : BitVec 16) (bit : Bool) : BitVec 16 :=
  if r.msb != bit then (r <<< 1) ^^^ 0x1021 else r <<< 1

/-- The bits of a byte, most significant first (07 R121). -/
def byteBits (b : Byte) : List Bool :=
  [b.getLsbD 7, b.getLsbD 6, b.getLsbD 5, b.getLsbD 4, b.getLsbD 3, b.getLsbD 2, b.getLsbD 1, b.getLsbD 0]

/-- The header check: CRC-8, preset 0xFF (07 R123). -/
def crc8 (bytes : List Byte) : Byte :=
  bytes.foldl (fun r b => (byteBits b).foldl crc8Bit r) 0xFF

/-- The frame check: CRC-16, preset 0xFFFF (07 R125). -/
def crc16 (bytes : List Byte) : BitVec 16 :=
  bytes.foldl (fun r b => (byteBits b).foldl crc16Bit r) 0xFFFF

/-- The two bytes of a 16-bit field, high byte first (00 section 5.1). -/
def bytesOf16 (w : BitVec 16) : List Byte := [w.extractLsb' 8 8, w.extractLsb' 0 8]

/-- A 16-bit field from its bytes, high byte first. -/
def wordOf (hi lo : Byte) : BitVec 16 := hi ++ lo

/-! ## The line header (11 Tables 11-1, 11-2) -/

def kindCode (k : Kind) : Nat :=
  match k with
  | .message => 0
  | .credit => 1
  | .notice => 2

def classBit (c : FrameClass) : Nat :=
  match c with
  | .routine => 0
  | .urgent => 1

def classOf (bit : Bool) : FrameClass := if bit then .urgent else .routine

/-- Bytes 0-5 of a header. -/
def headerBody (h : HeaderFields) : List Byte :=
  [BitVec.ofNat 8 (16 * h.source.val + h.dest.val),
   BitVec.ofNat 8 (64 * kindCode h.kind + 32 * classBit h.cls + 4 * h.seq.val),
   BitVec.ofNat 8 (32 * h.grant),
   BitVec.ofNat 8 h.length] ++ bytesOf16 h.tag

/-- The 7 bytes sent (07 R123). -/
def encodeHeader (h : HeaderFields) : List Byte := headerBody h ++ [crc8 (headerBody h)]

/-- The kind field; the fourth code is illegal (07 Table 7-1). -/
def kindOf (code : Nat) : Option Kind :=
  match code with
  | 0 => some .message
  | 1 => some .credit
  | 2 => some .notice
  | _ => none

/-- What 07 Table 7-1 allows for the kind. -/
def legalFields (h : HeaderFields) : Bool :=
  decide (h.grant ≤ 4) && decide (h.length ≤ Config.maxLength) &&
  match h.kind with
  | .message => h.dest != h.source
  | .credit => h.dest != h.source && h.length == 0
  | .notice => h.dest == 0 && h.seq == 0 && h.grant == 0

/-- The fields of six header bytes, when every field holds a legal value (07 R122, 11 R172). -/
def headerFields (b0 b1 b2 b3 b4 b5 : Byte) : Option HeaderFields :=
  if b1.toNat % 4 = 0 ∧ b2.toNat % 32 = 0 ∧ b3.toNat / 64 = 0 then
    match kindOf (b1.toNat / 64) with
    | none => none
    | some k =>
      let h : HeaderFields :=
        { source := Fin.ofNat 16 (b0.toNat / 16), dest := Fin.ofNat 16 b0.toNat, kind := k
          cls := classOf (b1.getLsbD 5), seq := Fin.ofNat 8 (b1.toNat / 4)
          grant := b2.toNat / 32, length := b3.toNat, tag := wordOf b4 b5 }
      if legalFields h then some h else none
  else none

/-- The header state that a reader fixes at cell 55, with the fields when GOOD (07 R124): EMPTY first, then GOOD when
the check passes and the header is legal, else BAD. -/
def readHeader (bytes : List Byte) : HeaderState × Option HeaderFields :=
  if bytes = emptyHeader then (.empty, none)
  else
    match bytes with
    | [b0, b1, b2, b3, b4, b5, b6] =>
      match headerFields b0 b1 b2 b3 b4 b5 with
      | some h => if crc8 [b0, b1, b2, b3, b4, b5] = b6 then (.good, some h) else (.bad, none)
      | none => (.bad, none)
    | _ => (.bad, none)

/-! ## What a claimant sends -/

/-- EMPTY: seven bytes of 0xFF and nothing more (07 R121). -/
def Tx.isEmpty (t : Tx) : Bool := t.header == emptyHeader

/-- The bytes that a claimant sends: header, payload, frame check, in cells from 0 (07 R121). -/
def Tx.bytes (t : Tx) : List Byte :=
  if t.isEmpty then t.header else t.header ++ t.payload ++ bytesOf16 (crc16 (t.header ++ t.payload))

/-- The data bit of cell n of a window whose bytes are given, most significant first; released beyond them. -/
def cellBit (bytes : List Byte) (n : Nat) : Bool := (bytes.getD (n / 8) 0xFF).getLsbD (7 - n % 8)

/-- The data bit of cell n of the own window: 1 where the claimant releases it. -/
def Tx.bit (t : Tx) (n : Nat) : Bool := cellBit t.bytes n

/-- The claimant compares cell n and it reads LOW: released by it, within its frame check, and driven by another
(07 R130). -/
def Tx.collidesAt (t : Tx) (others : List Byte) (n : Nat) : Bool :=
  t.bit n && decide (n < 8 * t.bytes.length) && !cellBit others n

/-- The first cell at which the claimant collides with what the others leave of the window (07 R130). -/
def Tx.firstCollision (t : Tx) (others : List Byte) : Option Nat :=
  (List.range (8 * t.bytes.length)).find? (t.collidesAt others)

/-- Whether the claimant drives cell n: a data bit 0, and no collision before it (07 R121, R130). -/
def Tx.drives (t : Tx) (n : Nat) : Bool :=
  !t.bit n && match t.collidedAt with
    | none => true
    | some c => decide (n ≤ c)

/-- Byte j of the cells of the own window as this claimant knows them: its own drive up to a collision, LOW at the
collision, released after it (07 R130). -/
def Tx.lineByte (t : Tx) (j : Nat) : Byte :=
  let b := (t.bytes).getD j 0xFF
  match t.collidedAt with
  | none => b
  | some c =>
    if 8 * j + 7 < c then b
    else if c < 8 * j then 0xFF
    else (b ||| ((0xFF : Byte) >>> (c - 8 * j + 1))) &&& ~~~((0x80 : Byte) >>> (c - 8 * j))

/-- The header bytes as this claimant leaves them. -/
def Tx.headerOnLine (t : Tx) : List Byte := (List.range 7).map t.lineByte

/-- The payload bytes as this claimant leaves them. -/
def Tx.payloadOnLine (t : Tx) : List Byte := (List.range t.payload.length).map (fun i => t.lineByte (7 + i))

/-! ## Frame descriptors (11 Table 11-3) -/

/-- The must-be-zero bits of an outbound descriptor hold 0 (11 R172). -/
def descriptorReservedOk (b1 b5 b6 b7 : Byte) : Bool :=
  b1 &&& 0x3F == 0 && b5 == 0 && b6 == 0 && b7 == 0

/-- The inbound descriptor of a stored frame (03 R58). -/
def inboundDescriptor (h : HeaderFields) : List Byte :=
  [BitVec.ofNat 8 h.source.val,
   BitVec.ofNat 8 (128 * (if h.kind = .notice then 1 else 0) + 64 * classBit h.cls),
   BitVec.ofNat 8 h.length] ++ bytesOf16 h.tag ++ [0, 0, 0]

/-- The 64 bytes of a stored frame: descriptor, L payload bytes, zeros (01 R1, 03 R58). -/
def storedImage (h : HeaderFields) (payload : List Byte) : List Byte :=
  inboundDescriptor h ++
    (List.range Config.maxLength).map (fun i => if i < h.length then payload.getD i 0xFF else 0)

/-! ## Port records -/

/-- 11 Table 11-6. -/
def outcomeCode (c : Completion) : Byte :=
  match c with
  | .delivered => 0x01
  | .refused => 0x02
  | .peerLost => 0x03
  | .peerAbsent => 0x04
  | .malformed => 0x05
  | .cancelled => 0x06
  | .allTaken => 0x07
  | .someTaken => 0x08
  | .noneTaken => 0x09
  | .unheard => 0x0A
  | .collided => 0x0B

/-- A frame number as a byte. -/
def frameByteOf (f : FrameNo) : Byte := BitVec.ofNat 8 f.val

/-- The frame that a byte names; none for 48-255 (09 R156). -/
def frameArg (n : Byte) : Option FrameNo :=
  if h : n.toNat < 48 then some ⟨n.toNat, h⟩ else none

/-- The five bytes of a completion record (11 Table 11-5). -/
def completionRecord (f : FrameNo) (d : DoneRecord) : CompletionLatch :=
  { frame := frameByteOf f, outcome := outcomeCode d.outcome, attempts := BitVec.ofNat 8 d.attempts
    tagHigh := d.tag.extractLsb' 8 8, tagLow := d.tag.extractLsb' 0 8 }

/-- Record byte i of the latch (11 Table 11-5). -/
def CompletionLatch.byte (c : CompletionLatch) (i : Nat) : Byte :=
  match i with
  | 0 => c.frame
  | 1 => c.outcome
  | 2 => c.attempts
  | 3 => c.tagHigh
  | _ => c.tagLow

/-- 11 Table 11-7, 0xC2D. -/
def misuseCode (k : MisuseKind) : Byte :=
  match k with
  | .postNotFilling => 1
  | .releaseNotHeld => 2
  | .cancelNotOutbound => 3
  | .writeNotFilling => 4
  | .readNotOwned => 5
  | .badCommand => 6

/-- 11 Table 11-7, 0xC20. -/
def participationCode (p : Participation) : Byte :=
  match p with
  | .listening => 0
  | .observing => 1
  | .joining => 2
  | .member => 3
  | .conflict => 4
  | .fault => 5

end Sys2Proof.Machine
end

