-- ==== Sys2Proof/Machine/Flags.lean ====
section
/-!
DEFINITION. The event unit (spec/09 section 9.6), the outputs IRQ and WAKE, and the views of the station that the
local port reads: status area, peer view, wake settings (spec/09 R160, spec/05 R99, spec/11).
-/

namespace Sys2Proof.Machine

/-- A byte from its bits, bit 7 first. -/
def byteOfBits (b7 b6 b5 b4 b3 b2 b1 b0 : Bool) : Byte :=
  BitVec.ofNat 8 (128 * b7.toNat + 64 * b6.toNat + 32 * b5.toNat + 16 * b4.toNat + 8 * b3.toNat + 4 * b2.toNat +
    2 * b1.toNat + b0.toNat)

/-- The raw flags (09 Table 9-5) in the places of 11 Table 11-8. A level event follows its condition (09 R161). -/
def State.eventRaw (s : State) : Byte :=
  byteOfBits (!s.ibu.inbound.isEmpty) (!s.osc.completion.isEmpty) s.takeReady s.lpt.latched.peer
    s.lpt.latched.joined s.lpt.latched.line s.lpt.latched.excess s.lpt.latched.misuse

/-- The status flags: raw and enable together (09 R162). -/
def State.eventStatus (s : State) : Byte := s.eventRaw &&& s.lpt.enable

/-- IRQ asserted (09 R163; 08 Table 8-3 during RESET). -/
def State.irq (s : State) : Bool := !s.resetAsserted && !s.wku.doze && s.eventStatus != 0

/-- WAKE asserted (10 R169; 08 Table 8-3 during RESET). -/
def State.wake (s : State) : Bool := !s.resetAsserted && s.wku.wakeLatch

/-- A write to EVENT_CLEAR clears each latched event whose position holds 1; clearing MISUSE empties the misuse
record in the same act; a 1 at a level event is ignored (09 R162, R164; 11 R171). -/
def State.clearEvents (s : State) (v : Byte) : State :=
  let l := s.lpt.latched
  let clearMisuse := v.getLsbD 0
  s.withLpt { s.lpt with
    latched := { peer := l.peer && !v.getLsbD 4, joined := l.joined && !v.getLsbD 3, line := l.line && !v.getLsbD 2
                 excess := l.excess && !v.getLsbD 1, misuse := l.misuse && !clearMisuse }
    misuse := if clearMisuse then none else s.lpt.misuse
    further := if clearMisuse then 0 else s.lpt.further }

/-- The lead view on the status port: 0xFF for none (11 Table 11-7). -/
def leadByte (lead : Option Pos) : Byte :=
  match lead with
  | some p => BitVec.ofNat 8 p.val
  | none => 0xFF

/-- The sixteen bytes of the status area, 0xC20 first (11 Table 11-7). -/
def State.statusArea (s : State) : List Byte :=
  [participationCode s.rdc.participation,
   BitVec.ofNat 8 s.own.val,
   BitVec.ofNat 8 s.c0,
   BitVec.ofNat 8 s.lif.straps.rate.val,
   leadByte s.rdc.leadView,
   BitVec.ofNat 8 s.freeCount,
   BitVec.ofNat 8 s.spare,
   BitVec.ofNat 8 s.outboundOwned,
   BitVec.ofNat 8 s.ibu.inbound.length,
   BitVec.ofNat 8 s.osc.completion.length,
   s.eventRaw,
   s.lpt.enable,
   s.eventStatus,
   (match s.lpt.misuse with | none => 0 | some m => misuseCode m.kind),
   (match s.lpt.misuse with | none => 0xFF | some m => (match m.frame with | none => 0xFF | some f => frameByteOf f)),
   BitVec.ofNat 8 s.lpt.further]

/-- The four bytes of a peer view entry (11 Table 11-10). -/
def PeerEntry.view (e : PeerEntry) : PeerView :=
  let oAttempts := match e.openCredit with | none => 0 | some o => o.attempts
  let oGrant := match e.openCredit with | none => 0 | some o => o.grant - 1
  let oSeq := match e.openCredit with | none => 0 | some o => o.seq.val
  let last := match e.lastAccepted with | none => 15 | some q => q.val
  { b0 := BitVec.ofNat 8 (128 * e.present.toNat + 32 * e.missed + 4 * e.held + oAttempts)
    b1 := BitVec.ofNat 8 (32 * e.owed + 4 * e.pending + oGrant)
    b2 := BitVec.ofNat 8 (32 * e.granted + 4 * e.sendSeq.val)
    b3 := BitVec.ofNat 8 (16 * last + 2 * oSeq) }

/-- Byte i of a peer view entry. -/
def PeerView.byte (v : PeerView) (i : Nat) : Byte :=
  match i with
  | 0 => v.b0
  | 1 => v.b1
  | 2 => v.b2
  | _ => v.b3

/-! ## Wake entries (10 Table 10-1, 11 Table 11-10) -/

def WakeEntry.enabled (e : WakeEntry) : Bool := e.settings0.getLsbD 7
def WakeEntry.urgentOnly (e : WakeEntry) : Bool := e.settings0.getLsbD 6
/-- The kind field: 0 MESSAGE, 1 NOTICE, 2 EITHER, 3 matches nothing. -/
def WakeEntry.kindField (e : WakeEntry) : Nat := e.settings0.toNat / 16 % 4
def WakeEntry.required (e : WakeEntry) : Nat := e.settings0.toNat % 16
def WakeEntry.anySource (e : WakeEntry) : Bool := e.settings1.getLsbD 4
def WakeEntry.source (e : WakeEntry) : Nat := e.settings1.toNat % 16

/-- Byte i of the wake settings of an entry (11 Table 11-10). -/
def WakeEntry.settingsByte (e : WakeEntry) (i : Nat) : Byte :=
  if i = 0 then e.settings0 else e.settings1

/-- Store byte i of the wake settings; the unused bits 7-5 of byte 1 are stored as 0 (11 R171). -/
def WakeEntry.setSettingsByte (e : WakeEntry) (i : Nat) (v : Byte) : WakeEntry :=
  if i = 0 then { e with settings0 := v } else { e with settings1 := v &&& 0x1F }

/-- Byte i of the wake tag table entry: tag value, then tag mask, high byte first (11 Table 11-10). -/
def WakeEntry.tagByte (e : WakeEntry) (i : Nat) : Byte :=
  match i with
  | 0 => e.tagValue.extractLsb' 8 8
  | 1 => e.tagValue.extractLsb' 0 8
  | 2 => e.tagMask.extractLsb' 8 8
  | _ => e.tagMask.extractLsb' 0 8

/-- Store byte i of the wake tag table entry. -/
def WakeEntry.setTagByte (e : WakeEntry) (i : Nat) (v : Byte) : WakeEntry :=
  match i with
  | 0 => { e with tagValue := wordOf v (e.tagValue.extractLsb' 0 8) }
  | 1 => { e with tagValue := wordOf (e.tagValue.extractLsb' 8 8) v }
  | 2 => { e with tagMask := wordOf v (e.tagMask.extractLsb' 0 8) }
  | _ => { e with tagMask := wordOf (e.tagMask.extractLsb' 8 8) v }

def State.wakeEntry (s : State) (n : Fin 3) : WakeEntry := s.wku.entries[n]

/-- A write to an entry never changes its match counter (10 R167): g changes settings only. -/
def State.updWake (s : State) (n : Fin 3) (g : WakeEntry → WakeEntry) : State :=
  s.withWku { s.wku with entries := s.wku.entries.set n (g (s.wakeEntry n)) }

/-- Every match counter 0 (10 R165, R166). -/
def State.zeroCounters (s : State) : State :=
  s.withWku { s.wku with entries := Vector.ofFn (fun n : Fin 3 => { s.wakeEntry n with counter := 0 }) }

/-- The entry matches a stored frame (10 R168): it takes part in matching (10 R167: enabled, required matches 1-15),
and source, kind, class and tag hold. -/
def WakeEntry.hits (e : WakeEntry) (h : HeaderFields) : Bool :=
  e.enabled && e.required != 0 &&
  (e.anySource || e.source == h.source.val) &&
  (e.kindField == 2 || (e.kindField == 0 && h.kind == .message) || (e.kindField == 1 && h.kind == .notice)) &&
  (!e.urgentOnly || h.cls == .urgent) &&
  ((h.tag ^^^ e.tagValue) &&& e.tagMask == 0)

/-- The entry after a frame is presented (10 R169). -/
def WakeEntry.count (e : WakeEntry) (h : HeaderFields) : WakeEntry :=
  if e.hits h && decide (e.counter < e.required) then { e with counter := e.counter + 1 } else e

/-- The match sets the WAKE latch: the counter after it is at or above the required matches (10 R169). -/
def WakeEntry.wakes (e : WakeEntry) (h : HeaderFields) : Bool :=
  e.hits h && decide (e.required ≤ (e.count h).counter)

/-- A stored frame is presented to the Wake Unit, while the station dozes (10 R168). -/
def State.presentToWake (s : State) (h : HeaderFields) : State :=
  if s.wku.doze then
    s.withWku { s.wku with
      entries := Vector.ofFn (fun n : Fin 3 => (s.wakeEntry n).count h)
      wakeLatch := s.wku.wakeLatch || (List.finRange 3).any (fun n => (s.wakeEntry n).wakes h) }
  else s

end Sys2Proof.Machine
end

