-- ==== Sys2Proof/Machine/Outbound.lean ====
section
/-!
DEFINITION. The Frame Pool's and the Outbound Scheduler's shared operations on outbound frames (spec/01 sections 1.6,
1.7, spec/02) and the Peer Table's acts of loss and reinitialisation that reach them (spec/05).
-/

namespace Sys2Proof.Machine

/-! ## Queues -/

/-- A QUEUED MESSAGE that names p. -/
def FrameRecord.queuedTo (r : FrameRecord) (p : Pos) : Bool :=
  match r with
  | .queued q => q.peer == some p
  | _ => false

/-- A QUEUED NOTICE. -/
def FrameRecord.queuedNotice (r : FrameRecord) : Bool :=
  match r with
  | .queued q => q.peer.isNone
  | _ => false

/-- A MESSAGE to p, QUEUED or SENDING, whose record carries a sequence (02 R24). -/
def FrameRecord.holdsSeqTo (r : FrameRecord) (p : Pos) : Bool :=
  match r with
  | .queued q | .sending q _ => q.peer == some p && q.openSeq.isSome
  | _ => false

/-- The place of a posted frame in post order. -/
def FrameRecord.postNo (r : FrameRecord) : Nat :=
  match r with
  | .queued q | .sending q _ => q.postNo
  | _ => 0

def State.queueOf (s : State) (c : FrameClass) : List FrameNo :=
  match c with
  | .urgent => s.osc.urgent
  | .routine => s.osc.routine

/-- The queue of a class, replaced. -/
def State.withQueue (s : State) (c : FrameClass) (q : List FrameNo) : State :=
  match c with
  | .urgent => s.withOsc { s.osc with urgent := q }
  | .routine => s.withOsc { s.osc with routine := q }

/-- A frame leaves its outbound queue, from any place (02 R23). -/
def State.unqueue (s : State) (f : FrameNo) : State :=
  s.withOsc { s.osc with urgent := s.osc.urgent.filter (fun g => g ≠ f)
                         routine := s.osc.routine.filter (fun g => g ≠ f) }

/-- The place that post order gives a frame: after every frame of the queue posted before it (02 R23). -/
def State.insertByPost (s : State) (n : Nat) (f : FrameNo) (queue : List FrameNo) : List FrameNo :=
  match queue with
  | [] => [f]
  | g :: rest => if (s.frame g).postNo < n then g :: s.insertByPost n f rest else f :: g :: rest

/-- A frame enters or re-enters QUEUED with this record, at the place its post order gives (02 R23). -/
def State.enqueue (s : State) (f : FrameNo) (q : Posted) : State :=
  let t := s.setFrame f (.queued q)
  t.withQueue q.cls (t.insertByPost q.postNo f (t.queueOf q.cls))

/-! ## Completion -/

/-- A frame enters DONE and joins the tail of the completion queue (02 R45). -/
def State.complete (s : State) (f : FrameNo) (d : DoneRecord) : State :=
  let t := s.setFrame f (.done d)
  t.withOsc { t.osc with completion := t.osc.completion ++ [f] }

/-- The DONE record of a posted frame: sequence, frozen grant and length become absent (01 R2). -/
def Posted.doneRecord (q : Posted) (outcome : Completion) (attempts : Nat) : DoneRecord :=
  { cls := q.cls, notice := q.peer.isNone, peer := q.peer, tag := q.tag, attempts := attempts, outcome := outcome }

/-- A QUEUED frame completes with its current attempts. -/
def State.completeQueued (s : State) (outcome : Completion) (f : FrameNo) : State :=
  match s.frame f with
  | .queued q => (s.unqueue f).complete f (q.doneRecord outcome q.attempts)
  | _ => s

/-- Every QUEUED frame naming p completes: the URGENT queue first, then the ROUTINE queue, each in queue order
(01 R13). -/
def State.completeAllTo (s : State) (p : Pos) (outcome : Completion) : State :=
  ((s.osc.urgent.filter (fun f => (s.frame f).queuedTo p)) ++
   (s.osc.routine.filter (fun f => (s.frame f).queuedTo p))).foldl (fun t f => t.completeQueued outcome f) s

/-! ## Settlement of grants and sequences (04 R68, R80) -/

/-- pending_p falls by k, granted_p rises by k. -/
def PeerEntry.grantAccepted (e : PeerEntry) (k : Nat) : PeerEntry :=
  { e with pending := e.pending - k, granted := e.granted + k }

/-- pending_p falls by k, owed_p rises by k. -/
def PeerEntry.grantReturned (e : PeerEntry) (k : Nat) : PeerEntry :=
  { e with pending := e.pending - k, owed := e.owed + k }

/-- owed_p falls by k, pending_p rises by k (04 R66). -/
def PeerEntry.grantBuilt (e : PeerEntry) (k : Nat) : PeerEntry :=
  { e with owed := e.owed - k, pending := e.pending + k }

/-- The send sequence advances by 1 modulo 8 (04 R80). -/
def PeerEntry.advance (e : PeerEntry) : PeerEntry := { e with sendSeq := e.sendSeq + 1 }

/-- The open sequence of a cancelled MESSAGE (02 R41): with a grant of 1 or more it passes to p's open credit frame,
with the frame's attempts; with grant 0 it closes. A frame with no sequence leaves the entry unchanged. -/
def State.settleCancelled (s : State) (q : Posted) (attempts : Nat) : State :=
  match q.peer, q.openSeq with
  | some p, some o =>
    if 1 ≤ o.grant then
      s.updPeer p (fun e => { e with openCredit := some { seq := o.seq, grant := o.grant, attempts := attempts } })
    else s.updPeer p PeerEntry.advance
  | _, _ => s

/-- A posted frame completes CANCELLED with these attempts, its sequence settled in the same act (02 R41). The frame
has left its queue or the slot. -/
def State.completeCancelled (s : State) (f : FrameNo) (q : Posted) (attempts : Nat) : State :=
  (s.complete f (q.doneRecord .cancelled attempts)).settleCancelled q attempts

/-! ## Loss and reinitialisation (05 R86, R90) -/

/-- Credit-bearing is cleared on an ARRIVED or HELD frame from p (01 R18). -/
def FrameRecord.clearCredit (r : FrameRecord) (p : Pos) : FrameRecord :=
  match r with
  | .arrived i => if i.peer = some p then .arrived { i with creditBearing := false } else r
  | .held i => if i.peer = some p then .held { i with creditBearing := false } else r
  | _ => r

/-- A QUEUED frame naming p loses its sequence and frozen grant (01 R13). -/
def FrameRecord.dropSeq (r : FrameRecord) (p : Pos) : FrameRecord :=
  match r with
  | .queued q => if q.peer = some p then .queued { q with openSeq := none } else r
  | _ => r

/-- The entry of a lost peer (05 R86). -/
def PeerEntry.lost (missed : Nat) : PeerEntry := { PeerEntry.atReset with missed := missed }

/-- The entry of a peer reinitialised to PRESENT (05 R90). -/
def PeerEntry.reinitialised (c0 : Nat) : PeerEntry := { PeerEntry.atReset with present := true, owed := c0 }

/-- Loss of peer p, in one act (05 R86). `missed` is 3 for a loss by missed presence and 0 for any other. -/
def State.losePeer (s : State) (p : Pos) (missed : Nat) (outcome : Completion) : State :=
  (((s.setPeer p (PeerEntry.lost missed)).mapFrames (fun r => r.clearCredit p)).completeAllTo p outcome).latchPeer

/-- Reinitialisation of p's entry to PRESENT, in one act (05 R90). -/
def State.reinitPeer (s : State) (p : Pos) : State :=
  ((s.setPeer p (PeerEntry.reinitialised s.c0)).mapFrames (fun r => (r.clearCredit p).dropSeq p)).latchPeer

/-! ## Sendability and the choice (02 R25, R27; 04 R73, R74) -/

/-- A frame other than f to p carries a sequence (02 R25 condition 4). -/
def State.seqElsewhere (s : State) (p : Pos) (f : FrameNo) : Bool :=
  (List.finRange 48).any (fun g => g != f && (s.frame g).holdsSeqTo p)

/-- 02 R25. -/
def State.sendable (s : State) (f : FrameNo) : Bool :=
  match s.frame f with
  | .queued q =>
    match q.peer with
    | some p =>
      (s.peer p).present && decide (1 ≤ (s.peer p).held) && (s.peer p).openCredit.isNone && !s.seqElsewhere p f &&
        (s.queueOf q.cls).find? (fun g => (s.frame g).queuedTo p) == some f
    | none => (s.queueOf q.cls).find? (fun g => (s.frame g).queuedNotice) == some f
  | _ => false

/-- p has an open sequence (02 R24). -/
def State.hasOpenSeq (s : State) (p : Pos) : Bool :=
  (List.finRange 48).any (fun g => (s.frame g).holdsSeqTo p) || (s.peer p).openCredit.isSome

/-- p is a credit-frame candidate (04 R73). -/
def State.creditCandidate (s : State) (p : Pos) : Bool :=
  (s.peer p).present && !s.hasOpenSeq p &&
  !((s.osc.urgent ++ s.osc.routine).any (fun g => (s.frame g).queuedTo p && s.sendable g)) &&
  decide (1 ≤ min (s.peer p).owed s.spare)

/-- The better of two credit-frame candidates: the larger owed, and the earlier of equals (04 R74). -/
def State.betterCredit (s : State) (best : Option Pos) (p : Pos) : Option Pos :=
  match best with
  | none => some p
  | some b => if (s.peer b).owed < (s.peer p).owed then some p else some b

/-- The credit-frame candidate that is chosen (04 R74). -/
def State.bestCredit (s : State) : Option Pos :=
  (s.peerPositions.filter s.creditCandidate).foldl s.betterCredit none

/-- The oldest sendable frame of a queue. -/
def State.sendableOf (s : State) (c : FrameClass) : Option Transmission :=
  ((s.queueOf c).find? s.sendable).map Transmission.frame

/-- The retry of the open credit frame of the lowest-numbered peer that has one (04 R78). -/
def State.retryChoice (s : State) : Option Transmission :=
  (s.peerPositions.find? (fun p => (s.peer p).openCredit.isSome)).map Transmission.creditRetry

/-- A new credit frame to the chosen candidate. -/
def State.creditChoice (s : State) : Option Transmission :=
  s.bestCredit.map (fun p => Transmission.newCredit p none)

/-- The choice of 02 R27, from the state at that moment: the first step that yields a transmission. -/
def State.choice (s : State) : Option Transmission :=
  (s.sendableOf .urgent).or (s.retryChoice.or
    (if s.osc.creditLast then (s.sendableOf .routine).or s.creditChoice
     else s.creditChoice.or (s.sendableOf .routine)))

/-- The indication of 02 R26. -/
def State.hasTransmission (s : State) : Bool := s.isMember && s.choice.isSome

/-- The chosen transmission enters the transmit slot; a pool frame leaves its queue and enters SENDING with
cancel-requested clear (02 R28). -/
def State.claimSlot (s : State) (t : Transmission) : State :=
  match t with
  | .frame f =>
    match s.frame f with
    | .queued q =>
      let u := (s.unqueue f).setFrame f (.sending q false)
      u.withOsc { u.osc with slot := some t }
    | _ => s
  | .creditRetry _ | .newCredit _ _ | .empty => s.withOsc { s.osc with slot := some t }

/-! ## Window start (02 R31, R42; 04 R66, R75, R78) -/

/-- The header of a pool frame (02 Table 2-1). -/
def State.poolHeader (s : State) (q : Posted) (o : OpenSeq) : HeaderFields :=
  match q.peer with
  | some p =>
    { source := s.own, dest := p, kind := .message, cls := q.cls, seq := o.seq, grant := o.grant
      length := q.length, tag := q.tag }
  | none =>
    { source := s.own, dest := 0, kind := .notice, cls := q.cls, seq := 0, grant := 0, length := q.length, tag := q.tag }

/-- The header of a credit frame (04 Table 4-3). -/
def State.creditHeader (s : State) (p : Pos) (o : OpenSeq) : HeaderFields :=
  { source := s.own, dest := p, kind := .credit, cls := .routine, seq := o.seq, grant := o.grant, length := 0, tag := 0 }

/-- FEN holds the transmit header, and the payload bytes read at window start (07 R129, 02 R31). -/
def State.beginTx (s : State) (header payload : List Byte) : State :=
  s.withFen { s.fen with tx := some { header := header, payload := payload, collidedAt := none } }

def State.setSlot (s : State) (t : Option Transmission) : State := s.withOsc { s.osc with slot := t }
def State.setCreditLast (s : State) (b : Bool) : State := s.withOsc { s.osc with creditLast := b }

/-- What a mark in this cell would undo (07 R128), where the window began at the cell after an EMPTY header. -/
def State.noteUndo (s : State) (u : StartUndo) : State :=
  s.withFen { s.fen with undo := s.fen.undo.map (fun x => { x with start := some u }) }

/-- An EMPTY window (07 R121, R129). -/
def State.startEmpty (s : State) : State := (s.setSlot (some .empty)).beginTx emptyHeader []

/-- The grant to p: min(owed_p, spare) at that moment (04 R66). -/
def State.grantTo (s : State) (p : Pos) : Nat := min (s.peer p).owed s.spare

/-- Window start with a pool frame in the slot. -/
def State.startFrame (s : State) (f : FrameNo) (q : Posted) (cancelRequested : Bool) : State :=
  if cancelRequested then
    -- 02 R42
    ((s.completeCancelled f q q.attempts).startEmpty).noteUndo (.cancelled f q s.osc.creditLast)
  else
    let payload := s.payloadBytes f q.length
    match q.peer, q.openSeq with
    | some p, none =>
      let o : OpenSeq := { seq := (s.peer p).sendSeq, grant := s.grantTo p }
      ((((s.setFrame f (.sending { q with openSeq := some o } false)).updPeer p (fun e => e.grantBuilt o.grant)).setCreditLast
        false).beginTx (encodeHeader (s.poolHeader q o)) payload).noteUndo (.grantBuilt f p o.grant s.osc.creditLast)
    | some _, some o =>
      ((s.setCreditLast false).beginTx (encodeHeader (s.poolHeader q o)) payload).noteUndo (.header s.osc.creditLast)
    | none, _ =>
      ((s.setCreditLast false).beginTx (encodeHeader (s.poolHeader q { seq := 0, grant := 0 })) payload).noteUndo
        (.header s.osc.creditLast)

/-- Window start with a new credit frame to p in the slot (04 R75). -/
def State.startCredit (s : State) (p : Pos) : State :=
  let o : OpenSeq := { seq := (s.peer p).sendSeq, grant := s.grantTo p }
  if o.grant = 0 then
    ((s.setCreditLast true).startEmpty).noteUndo (.creditBuilt p 0 s.osc.creditLast)
  else
    ((((s.updPeer p (fun e => e.grantBuilt o.grant)).setSlot (some (.newCredit p (some o)))).setCreditLast true).beginTx
      (encodeHeader (s.creditHeader p o)) []).noteUndo (.creditBuilt p o.grant s.osc.creditLast)

/-- The station builds the header of its transmission (02 R31). -/
def State.startWindow (s : State) : State :=
  match s.osc.slot with
  | none => s
  | some (.frame f) =>
    match s.frame f with
    | .sending q c => s.startFrame f q c
    | _ => s
  | some (.creditRetry p) =>
    match (s.peer p).openCredit with
    | some o =>
      ((s.setCreditLast true).beginTx (encodeHeader (s.creditHeader p { seq := o.seq, grant := o.grant })) []).noteUndo
        (.header s.osc.creditLast)
    | none => s
  | some (.newCredit p _) => s.startCredit p
  | some .empty => s.startEmpty.noteUndo (.header s.osc.creditLast)

/-- A window-start act is undone (07 R128). A frame that the cancel check completed is SENDING again with
cancel-requested set, and its sequence stands as before; were it popped meanwhile, the cancellation stands (log 17). -/
def State.undoStart (s : State) (u : StartUndo) : State :=
  match u with
  | .header flag => s.setCreditLast flag
  | .grantBuilt f p k flag =>
    let t := (s.updPeer p (fun e => e.grantReturned k)).setCreditLast flag
    match t.frame f with
    | .sending q c => t.setFrame f (.sending { q with openSeq := none } c)
    | _ => t
  | .cancelled f was flag =>
    let t := s.setCreditLast flag
    match t.frame f, t.osc.slot with
    | .done _, some .empty =>
      let r := t.setFrame f (.sending was true)
      let r := r.withOsc { r.osc with slot := some (.frame f), completion := r.osc.completion.filter (fun g => g ≠ f) }
      match was.peer, was.openSeq with
      | some p, some o =>
        if 1 ≤ o.grant then r.updPeer p (fun e => { e with openCredit := none })
        else r.updPeer p (fun e => { e with sendSeq := o.seq })
      | _, _ => r
    | _, _ => t
  | .creditBuilt p k flag =>
    let t := (s.updPeer p (fun e => e.grantReturned k)).setCreditLast flag
    match t.osc.slot with
    | some (.newCredit _ _) | some .empty => t.setSlot (some (.newCredit p none))
    | _ => t

/-! ## Outcomes (02 R33 to R39, R43; 04 R76, R79) -/

/-- The answer to a MESSAGE or CREDIT header (07 Table 7-3). -/
def readAnswer (a b : Level) : Answer :=
  match a, b with
  | .low, .high => .accepted
  | .high, .low => .refused
  | .low, .low => .damaged
  | .high, .high => .silent

/-- The outcome of a NOTICE (07 R135). -/
def readNotice (a b : Level) : Completion :=
  match a, b with
  | .low, .high => .allTaken
  | .low, .low => .someTaken
  | .high, .low => .noneTaken
  | .high, .high => .unheard

/-- A final answer settles grant k of a header to p and advances the send sequence (04 R68, R80). -/
def PeerEntry.settle (e : PeerEntry) (accepted : Bool) (k : Nat) : PeerEntry :=
  ((if accepted then e.grantAccepted k else e.grantReturned k)).advance

/-- The outcome of a MESSAGE to p with sequence and frozen grant o; the slot is empty (02 R34 to R37, R43). -/
def State.settleMessage (s : State) (f : FrameNo) (q : Posted) (cancelRequested : Bool) (p : Pos) (answer : Answer) :
    State :=
  let k := match q.openSeq with | some o => o.grant | none => 0
  match answer with
  | .accepted =>
    (s.complete f (q.doneRecord .delivered q.attempts)).updPeer p
      (fun e => { e.settle true k with held := e.held - 1 })
  | .refused =>
    (s.complete f (q.doneRecord .refused q.attempts)).updPeer p (fun e => { e.settle false k with held := 0 })
  | .damaged | .silent | .collided =>
    let n := q.attempts + 1
    if Config.maxAttempts ≤ n then (s.complete f (q.doneRecord .peerLost n)).losePeer p 0 .peerLost
    else if cancelRequested then s.completeCancelled f q n
    else s.enqueue f { q with attempts := n }

/-- The answer to a new credit frame with sequence and grant o (04 R76). -/
def State.settleNewCredit (s : State) (p : Pos) (o : OpenSeq) (answer : Answer) : State :=
  match answer with
  | .accepted => s.updPeer p (fun e => e.settle true o.grant)
  | .refused => s.updPeer p (fun e => e.settle false o.grant)
  | .damaged | .silent | .collided =>
    s.updPeer p (fun e => { e with openCredit := some { seq := o.seq, grant := o.grant, attempts := 1 } })

/-- The answer to a retry of p's open credit frame (04 R79). -/
def State.settleRetry (s : State) (p : Pos) (o : OpenCredit) (answer : Answer) : State :=
  match answer with
  | .accepted => s.updPeer p (fun e => { e.settle true o.grant with openCredit := none })
  | .refused => s.updPeer p (fun e => { e.settle false o.grant with openCredit := none })
  | .damaged | .silent | .collided =>
    if Config.maxAttempts ≤ o.attempts + 1 then s.losePeer p 0 .peerLost
    else s.updPeer p (fun e => { e with openCredit := some { o with attempts := o.attempts + 1 } })

/-- OSC settles the outcome of the own window in one act: it empties the slot, moves the frame and makes the peer
table requests (02 R33). `collided` overrides whatever the answer cells read. -/
def State.settleWindow (s : State) (t : Transmission) (collided : Bool) (a b : Level) : State :=
  let r := s.setSlot none
  let answer := if collided then Answer.collided else readAnswer a b
  match t with
  | .frame f =>
    match r.frame f with
    | .sending q c =>
      match q.peer with
      | some p => r.settleMessage f q c p answer
      | none =>
        -- 02 R38
        if collided then r.complete f (q.doneRecord .collided (q.attempts + 1))
        else r.complete f (q.doneRecord (readNotice a b) q.attempts)
    | _ => r
  | .creditRetry p =>
    match (r.peer p).openCredit with
    | some o => r.settleRetry p o answer
    | none => r
  | .newCredit p (some o) => r.settleNewCredit p o answer
  | .newCredit _ none | .empty => r

/-! ## Withdrawal (02 R40, 01 R11) -/

/-- The transmission in the slot is withdrawn when the station leaves the round; `headerBuilt` says whether its own
window had started. The retry of an open credit frame whose window has not started is left as it was (log 16). -/
def State.withdraw (s : State) : State :=
  let headerBuilt := s.fen.tx.isSome
  let r := s.setSlot none
  match s.osc.slot with
  | none | some .empty | some (.newCredit _ none) => r
  | some (.frame f) =>
    match r.frame f with
    | .sending q c =>
      let n := q.attempts + 1
      if Config.maxAttempts ≤ n then r.complete f (q.doneRecord .peerLost n)
      else if c then r.completeCancelled f q n
      else r.enqueue f { q with attempts := n }
    | _ => r
  | some (.newCredit p (some o)) =>
    r.updPeer p (fun e => { e with openCredit := some { seq := o.seq, grant := o.grant, attempts := 1 } })
  | some (.creditRetry p) =>
    match (r.peer p).openCredit with
    | some o =>
      if !headerBuilt then r
      else if Config.maxAttempts ≤ o.attempts + 1 then
        r.updPeer p (fun e => { e.settle false o.grant with openCredit := none })
      else r.updPeer p (fun e => { e with openCredit := some { o with attempts := o.attempts + 1 } })
    | none => r

end Sys2Proof.Machine
end

