-- ==== Sys2Proof/Machine/Inbound.lean ====
section
/-!
DEFINITION. The Inbound Unit: the decision for a window and its effects (spec/03), accept (spec/01 R15) and the
application of received grants (spec/04 R71).
-/

namespace Sys2Proof.Machine

/-- The window on the line: the claimant that the window index names (06 R115). -/
def State.windowOwner (s : State) : Option Pos :=
  match s.rdc.window with
  | some i => s.rdc.claimants[i]?
  | none => none

/-- The window is the station's own: a MEMBER's, whose owner is the own position (06 R115). -/
def State.ownWindow (s : State) : Bool := s.isMember && s.windowOwner == some s.own

/-- The station judges this window (03 R49). -/
def State.judges (s : State) : Bool := s.drivesLine && !s.ownWindow

/-- Accept (01 R15): the free-list head enters ARRIVED with its image and joins the inbound queue. The free list is
never empty here (01 R6). -/
def State.accept (s : State) (h : HeaderFields) (payload : List Byte) : State :=
  match s.fpl.freeList with
  | [] => s
  | f :: rest =>
    let notice := h.kind == .notice
    let t := s.setFrame f (.arrived { cls := h.cls, peer := if notice then none else some h.source
                                      creditBearing := !notice })
    let t := t.withFpl { t.fpl with freeList := rest
                                    mem := Memory.writeBytes t.fpl.mem (frameBase f) (storedImage h payload) }
    t.withIbu { inbound := t.ibu.inbound ++ [f] }

/-- A grant received from p is added to held_p, clamped at C0; an excess latches EXCESS (04 R71). -/
def State.applyGrant (s : State) (p : Pos) (g : Nat) : State :=
  let sum := (s.peer p).held + g
  let t := s.updPeer p (fun e => { e with held := min sum s.c0 })
  if s.c0 < sum then t.latchExcess else t

/-- The decision for a MESSAGE addressed here, GOOD throughout: the first test that applies (03 R52). -/
def State.decideMessage (s : State) (h : HeaderFields) : Decision :=
  let e := s.peer h.source
  if !e.present then .refuse
  else if e.lastAccepted = some h.seq then .accept
  else if e.granted = 0 then .refuse
  else .accept

/-- The frame is stored: accepted by test 4 of 03 R52. -/
def State.storesMessage (s : State) (h : HeaderFields) : Bool :=
  let e := s.peer h.source
  e.present && e.lastAccepted != some h.seq && e.granted != 0

/-- A MESSAGE accepted by test 4 is stored in one act (03 R53). -/
def State.storeMessage (s : State) (h : HeaderFields) (payload : List Byte) : State :=
  (((s.accept h payload).updPeer h.source
      (fun e => { e with granted := e.granted - 1, lastAccepted := some h.seq })).applyGrant h.source h.grant).presentToWake h

/-- The decision for a CREDIT addressed here, GOOD throughout (03 R56). -/
def State.decideCredit (s : State) (h : HeaderFields) : Decision :=
  if (s.peer h.source).present then .accept else .refuse

/-- A CREDIT accepted and not a duplicate (03 R56 test 3). -/
def State.takesCredit (s : State) (h : HeaderFields) : Bool :=
  (s.peer h.source).present && (s.peer h.source).lastAccepted != some h.seq

/-- The effect of a CREDIT accepted by test 3 (03 R56). -/
def State.takeCredit (s : State) (h : HeaderFields) : State :=
  (s.updPeer h.source (fun e => { e with lastAccepted := some h.seq })).applyGrant h.source h.grant

/-- The decision for a NOTICE, GOOD throughout (03 R57). -/
def State.decideNotice (s : State) (h : HeaderFields) : Decision :=
  if !(s.peer h.source).present then .refuse else if s.spare = 0 then .refuse else .accept

/-- A stored NOTICE (03 R57). -/
def State.storeNotice (s : State) (h : HeaderFields) (payload : List Byte) : State :=
  (s.accept h payload).presentToWake h

/-- MESSAGE or CREDIT whose destination is the own position (03 R50). -/
def State.addressedHere (s : State) (h : HeaderFields) : Bool := h.kind != .notice && h.dest == s.own

/-- The decision for a judged window with a GOOD header from its owner (03 R50, Table 3-2). -/
def State.decideFrame (s : State) (h : HeaderFields) (checkGood : Bool) : Decision :=
  match h.kind with
  | .message =>
    if h.dest != s.own then .silent else if checkGood then s.decideMessage h else .damagedBoth
  | .credit =>
    if h.dest != s.own then .silent else if checkGood then s.decideCredit h else .damagedBoth
  | .notice => if checkGood then s.decideNotice h else .damagedNotice

/-- The effects of the decision, in the same act (03 R51). -/
def State.applyDecision (s : State) (h : HeaderFields) (checkGood : Bool) (payload : List Byte) : State :=
  if !checkGood then s
  else
    match h.kind with
    | .message => if s.addressedHere h && s.storesMessage h then s.storeMessage h payload else s
    | .credit => if s.addressedHere h && s.takesCredit h then s.takeCredit h else s
    | .notice => if s.decideNotice h = .accept then s.storeNotice h payload else s

/-- Whether the decision drives cell A (07 R134). -/
def Decision.drivesA (d : Decision) : Bool :=
  match d with
  | .accept | .damagedBoth => true
  | .refuse | .damagedNotice | .silent => false

/-- Whether the decision drives cell B (07 R134). -/
def Decision.drivesB (d : Decision) : Bool :=
  match d with
  | .refuse | .damagedBoth | .damagedNotice => true
  | .accept | .silent => false

end Sys2Proof.Machine
end

