-- ==== Sys2Proof/Machine/Line.lean ====
section
/-!
DEFINITION. The Line Interface and the Round Controller's shared acts: the edges of a cell, the counts, leaving the
round, entering LISTENING, CONFLICT and FAULT, opening and starting a round (spec/06, spec/08).
-/

namespace Sys2Proof.Machine

/-! ## Edges (08 R139, R140) -/

/-- The fall that begins a cell: a station that takes part in the clock drives WCLK and enters LOW; WDAT is driven or
released from the fall. A WDAT that this station releases reads HIGH until it is sampled (log 6). -/
def State.fall (s : State) (clocking drives : Bool) : State :=
  s.withLif { s.lif with
    phase := if clocking then .low else .none, cellTimer := 0, wclkDrive := clocking, wdatDrive := drives
    wclk := .low, wdat := if drives then .low else .high, openSeen := false, openCount := none
    idle := 0, clockLow := 0, dataLow := 0 }

/-- The rise that ends the low phase: WDAT is sampled. -/
def State.rise (s : State) (clocking drives : Bool) (sample : Level) : State :=
  s.withLif { s.lif with
    phase := if clocking then .high else .none, cellTimer := 0, wclkDrive := false, wdatDrive := drives
    wclk := .high, wdat := if drives then .low else sample, idle := 0, clockLow := 0, dataLow := 0 }

/-- The station takes part in the cell clock: JOINING and MEMBER in every round they are in, OBSERVING in a round it
opened itself (06 R101), which shows in its cell phase. -/
def State.clocks (s : State) : Bool := s.drivesLine || s.lif.phase != .none

/-! ## Counts (08 R142, R143, R147; 06 R110) -/

/-- The stuck condition (08 R147). -/
def lineStuck (l : Lif) : Bool := decide (Config.clockStuckAbove < l.clockLow) || decide (Config.dataStuckAbove < l.dataLow)

/-- Both wires read HIGH. -/
def bothHigh (l : Lif) : Bool := l.wclk == .high && l.wdat == .high

/-- The LIF's counts after n cell-times with both wires at the levels last read, each saturating. -/
def Lif.elapse (l : Lif) (n : Nat) : Lif :=
  { l with
    idle := if bothHigh l then min Config.settleGap (l.idle + n) else 0
    clockLow := if l.wclk = .low then min (Config.clockStuckAbove + 1) (l.clockLow + n) else 0
    dataLow := if l.wdat = .low ∧ l.wclk = .high then min (Config.dataStuckAbove + 1) (l.dataLow + n) else 0
    cellTimer := if l.phase = .none then 0 else min Config.cellTimerMax (l.cellTimer + n)
    openCount := l.openCount.map (fun c => min Config.openDuration (c + n)) }

/-- The sweep timer after n cell-times (06 R110). -/
def SweepTimer.elapse (t : SweepTimer) (n : Nat) : SweepTimer :=
  match t with
  | .running m => .running (min Config.sweepInterval (m + n))
  | .stopped => .stopped
  | .held => .held

/-- n cell-times pass with both wires at the levels last read. -/
def State.elapse (s : State) (n : Nat) : State :=
  (s.withLif (s.lif.elapse n)).withRdc { s.rdc with sweep := s.rdc.sweep.elapse n }

/-- Both wires read HIGH, with the idle-time count going on from where it stands or, where a wire read low, from 0. -/
def Lif.quiet (l : Lif) : Lif :=
  if bothHigh l then l
  else { l with wclk := .high, wdat := .high, idle := 0, clockLow := 0, dataLow := 0 }

/-- Both wires have read HIGH until the idle-time count reads at least n: the fewest cell-times for that (log 4). -/
def State.quietUntil (s : State) (n : Nat) : State :=
  let t := s.withLif s.lif.quiet
  t.elapse (n - t.lif.idle)

/-- The wire stays low until its count is above its threshold (08 R147). This station's own drive of the wire has
ended by then: its drives are bounded and never reach the thresholds. -/
def State.holdLow (s : State) (wire : Wire) : State :=
  match wire with
  | .wclk =>
    let t := s.withLif { s.lif with wclkDrive := false, wclk := .low }
    t.elapse (Config.clockStuckAbove + 1 - t.lif.clockLow)
  | .wdat =>
    let t := s.withLif { s.lif with wclkDrive := false, wdatDrive := false, wclk := .high, wdat := .low }
    t.elapse (Config.dataStuckAbove + 1 - t.lif.dataLow)

/-- The idle-time count restarts from 0 (08 R142). -/
def State.restartIdle (s : State) : State := s.withLif { s.lif with idle := 0 }

/-! ## Leaving the round (06 R105) -/

/-- Both wires released in the same act (08 R148); a wire this station pulled low reads HIGH (log 6). -/
def Lif.released (l : Lif) : Lif :=
  let wclk := if l.wclkDrive then .high else l.wclk
  let wdat := if l.wdatDrive then .high else l.wdat
  { l with
    phase := .none, cellTimer := 0, wclkDrive := false, wdatDrive := false, wclk := wclk, wdat := wdat
    openSeen := false, openCount := none
    clockLow := if wclk = .high then 0 else l.clockLow
    dataLow := if wdat = .high ∨ wclk = .low then 0 else l.dataLow }

/-- The effects of 06 R105, items 1 to 7, with the participation state entered: the wires released, the transmission
withdrawn, the staging buffer invalid, nothing of the round kept. -/
def State.leaveRound (s : State) (entered : Participation) : State :=
  let w := s.withdraw
  let w := w.withLif w.lif.released
  let w := w.withFen { w.fen with
    staging := { w.fen.staging with valid := false }, tx := none, size := none, decision := none
    answerA := false, answerB := false, undo := none }
  w.withRdc { w.rdc with
    participation := entered, leadView := none, chain := 0, claimants := [], window := none, sweep := .stopped
    streak := 0, joinPending := false, rejoin := false, stage := .idle, joinFromMember := false }

/-- Entry to FAULT: the effects of 06 R105, LINE latched, the idle count from 0 (06 R107). -/
def State.enterFault (s : State) : State := ((s.leaveRound .fault).restartIdle).latchLine

/-- Entry to LISTENING (06 R102), and FAULT at once where the line is stuck (08 R147). -/
def State.enterListening (s : State) : State :=
  let t := (s.leaveRound .listening).restartIdle
  if lineStuck t.lif then t.enterFault else t

/-- A sync loss (06 R105, 07 R132). -/
def State.syncLoss (s : State) : State := s.latchLine.enterListening

/-- Entry to CONFLICT (06 R106). -/
def State.enterConflict (s : State) : State := (s.leaveRound .conflict).latchLine

/-- LISTENING to OBSERVING at a boundary (06 R102). -/
def State.enterObserving (s : State) : State :=
  s.withRdc { s.rdc with
    participation := .observing, sweep := .running 0, chain := 0, joinPending := false, rejoin := false
    leadView := none }

/-- The stuck condition takes the Round Controller to FAULT from LISTENING, OBSERVING, JOINING and MEMBER
(06 R107, 08 R147). -/
def State.takeStuck (s : State) : State :=
  match s.rdc.participation with
  | .listening | .observing | .joining | .member => s.enterFault
  | .conflict | .fault => s

/-! ## Opening and starting a round (06 R104, R108, R109; 08 R143) -/

/-- The sweep timer has run out (06 R110). -/
def State.sweepOut (s : State) : Bool :=
  match s.rdc.sweep with
  | .running n => decide (Config.sweepInterval ≤ n)
  | .stopped | .held => false

/-- A reason to open (06 R108). -/
def State.reasonToOpen (s : State) : Bool :=
  match s.rdc.participation with
  | .member => s.hasTransmission || s.rdc.rejoin || s.sweepOut
  | .observing => s.rdc.joinPending || s.sweepOut
  | .listening | .joining | .conflict | .fault => false

/-- An OBSERVING or MEMBER station with no round in progress (08 R144). -/
def State.betweenRounds (s : State) : Bool :=
  (s.isMember || s.isObserving) && s.rdc.stage == .idle

/-- The station neither holds its own OPEN nor has seen one. -/
def State.noOpen (s : State) : Bool := !s.lif.openSeen && s.lif.openCount.isNone

/-- The station opens at this moment: 06 R108, with no OPEN read on the idle line (08 R143, R144). -/
def State.opensNow (s : State) : Bool :=
  s.betweenRounds && s.noOpen && bothHigh s.lif && decide (Config.settleGap ≤ s.lif.idle) && s.reasonToOpen

/-- It drives WDAT low and starts its OPEN count from 0 (08 R143). -/
def State.beginOpen (s : State) : State :=
  s.withLif { s.lif with wdatDrive := true, wdat := .low, openCount := some 0, idle := 0, dataLow := 0 }

/-- Pending joins are taken at the start of a round (06 R104). -/
def State.takeJoins (s : State) : State :=
  match s.rdc.participation with
  | .observing =>
    if s.rdc.joinPending then
      s.withRdc { s.rdc with participation := .joining, joinPending := false, joinFromMember := false }
    else s
  | .member =>
    if s.rdc.rejoin then s.withRdc { s.rdc with participation := .joining, rejoin := false, joinFromMember := true }
    else s
  | .listening | .joining | .conflict | .fault => s

/-- What the station leaves of the LEAD field: it drives the cell for a bit 0 of its lead view (06 R111). -/
def State.leadOut (s : State) : BitVec 4 :=
  if s.drivesLine then
    match s.rdc.leadView with
    | some p => BitVec.ofNat 4 p.val
    | none => 15
  else 15

/-- The round-start acts (06 R109, R118): the chain count given, the rest alike, and pending joins taken. The sweep
timer is held, also at a station that becomes JOINING here (log 47). -/
def State.beginRound (s : State) (chain : Nat) : State :=
  ((s.withRdc { s.rdc with
      chain := chain, claimants := [], window := none, presence := BitVec.allOnes 16, sweep := .held
      stage := .lead }).withFen { s.fen with size := none, decision := none, undo := none }).takeJoins

/-- The fall of the first LEAD cell, with the drive of the state after the round-start acts (08 R143). -/
def State.leadFall (s : State) (clocking : Bool) : State := s.fall clocking (!s.leadOut.getLsbD 3)

/-- A round that follows OPEN starts (06 R109). `opener` says whether this station held OPEN: it takes part in the
clock even when OBSERVING. -/
def State.startRound (s : State) (opener : Bool) : State :=
  let t := s.beginRound 1
  t.leadFall (opener || t.drivesLine)

/-! ## A cell-time on an idle queue (log 3) -/

/-- The event that the counts make due, at most one (06 R102, R103, R107, R108; 08 R143, R147). -/
def State.takeDue (s : State) : State :=
  if lineStuck s.lif then s.takeStuck
  else if s.rdc.participation = .listening ∧ Config.boundary ≤ s.lif.idle then s.enterObserving
  else if s.rdc.participation = .fault ∧ Config.boundary ≤ s.lif.idle then s.enterListening
  else if s.isObserving = true ∧ s.rdc.stage ≠ .idle ∧ Config.boundary ≤ s.lif.idle then s.enterListening
  else if s.betweenRounds = true ∧ s.lif.openCount = some Config.openDuration then s.startRound true
  else if s.opensNow then s.beginOpen
  else s

/-- One cell-time passes in which no command comes and neither wire changes. Nothing passes while RESET is asserted;
a station that takes part in the cell clock waits for the cells that the commands bring. -/
def State.tick (s : State) : State :=
  if s.resetAsserted || s.lif.phase != .none then s else (s.elapse 1).takeDue

end Sys2Proof.Machine
end

