-- ==== Sys2Proof/Machine/IdleLine.lean ====
section
/-!
DEFINITION. The meanings of the commands of the line between rounds: the counts that reach a threshold and the edges
on an idle line (spec/06 sections 6.2 to 6.5, spec/08 sections 8.3 to 8.6).
-/

namespace Sys2Proof.Machine

/-! ## Counts -/

/-- BOUNDARY: the idle-time count reaches 24 at a LISTENING station (R102, R142). -/
def execBoundary (s : State) : Host.Outcome State Fault Refusal :=
  s.whenDue (s.rdc.participation == .listening) (s.quietUntil Config.boundary).enterObserving

/-- FAULT_RECOVERY: the idle-time count reaches 24 at a FAULT station (R107, R142). -/
def execFaultRecovery (s : State) : Host.Outcome State Fault Refusal :=
  s.whenDue (s.rdc.participation == .fault) (s.quietUntil Config.boundary).enterListening

/-- STUCK_LINE: a count passes its threshold (R147, R107). In CONFLICT and FAULT the counts run and nothing else
happens (`State.holdLow`, `State.takeStuck`). -/
def execStuckLine (wire : Wire) (s : State) : Host.Outcome State Fault Refusal :=
  s.whenDue true (s.holdLow wire).takeStuck

/-- Both lines HIGH for 24 cell-times where no rule acts on that count: in CONFLICT, and between rounds at a station
that has no OPEN on its line. The Line Interface counts the wires as read in every state (08 R142, R147), and a stuck
condition ends with the rise. -/
def State.quietUnused (s : State) : Bool :=
  s.rdc.participation == .conflict || (s.betweenRounds && s.noOpen)

/-- ROUND_STOPPED: both lines HIGH for 24 cell-times inside a round, at an OBSERVING station; no event (R103). At a
station that does not act on that count, the counts of the wires alone (log 45). -/
def execRoundStopped (s : State) : Host.Outcome State Fault Refusal :=
  s.whenDue (s.isObserving && s.rdc.stage != .idle || s.quietUnused)
    (if s.isObserving && s.rdc.stage != .idle then (s.quietUntil Config.boundary).enterListening
     else s.quietUntil Config.boundary)

/-- OPEN: an idle count of 32 with a reason to open (R108, R143). -/
def execOpenRound (s : State) : Host.Outcome State Fault Refusal :=
  s.whenDue (s.betweenRounds && s.noOpen && (s.quietUntil Config.settleGap).reasonToOpen)
    (s.quietUntil Config.settleGap).beginOpen

/-- The cell-times that an OPEN still lasts. -/
def Lif.openLeft (l : Lif) : Nat :=
  match l.openCount with
  | some c => Config.openDuration - c
  | none => 0

/-- OPEN_COMPLETE: the OPEN count reaches 8; the opener drives WCLK low and the round starts at that fall (R143,
R104, R109; log 15). -/
def execOpenComplete (s : State) : Host.Outcome State Fault Refusal :=
  s.whenDue (s.betweenRounds && s.lif.openCount.isSome) ((s.elapse s.lif.openLeft).startRound true)

/-- SWEEP_RUN_OUT: the sweep timer reaches 65,536 (R110). With both wires HIGH the idle-time count runs with it
(log 24). -/
def State.sweepUp (s : State) : State :=
  match s.rdc.sweep with
  | .running m =>
    if bothHigh s.lif then s.elapse (Config.sweepInterval - m)
    else s.withRdc { s.rdc with sweep := .running Config.sweepInterval }
  | .stopped | .held => s

/-- SWEEP_RUN_OUT (R110): nothing where the timer does not run. -/
def execSweepRunOut (s : State) : Host.Outcome State Fault Refusal := s.whenDue true s.sweepUp

/-! ## Edges on an idle line -/

/-- The wires read WDAT low with WCLK HIGH, from a fall of WDAT: the idle count ends. -/
def State.dataFalls (s : State) : State :=
  s.withLif { s.lif with wclk := .high, wdat := .low, idle := 0, clockLow := 0, dataLow := 0 }

/-- The high phase of a cell of a round: a change of WDAT here is not data (08 R140). -/
def State.highPhase (s : State) : Bool := s.rdc.stage != .idle && s.lif.wclk == .high

/-- OPEN_SEEN: WDAT falls while WCLK is HIGH on an idle line (R144, R109). An OBSERVING or MEMBER station sets open
seen; for LISTENING and FAULT the fall ends the idle count; CONFLICT does not read it, though its counts go by the
wires (R147). Inside a round, in the high phase of a cell, the fall moves the wire and the counts alone: it opens no
round, and the data-low count counts it (R140; log 48). -/
def execOpenSeen (s : State) : Host.Outcome State Fault Refusal :=
  s.whenDue (s.noOpen && (s.rdc.stage == .idle || (s.highPhase && s.lif.wdat == .high)))
    (if s.betweenRounds then
      let t := s.dataFalls
      t.withLif { t.lif with openSeen := true }
     else s.dataFalls)

/-- ROUND_START: WCLK falls with open seen set, or while the station holds its own OPEN (R109, R144, R143). -/
def execRoundStart (s : State) : Host.Outcome State Fault Refusal :=
  s.whenDue (s.betweenRounds && !s.noOpen) (s.startRound s.lif.openCount.isSome)

/-- WDAT can rise with open seen clear: this station does not hold it low by an OPEN or by its drive in a round, where
the rise is one in the high phase of a cell. -/
def State.dataRises (s : State) : Bool :=
  s.lif.openCount.isNone && s.lif.wdat == .low && (s.rdc.stage == .idle || (s.highPhase && !s.lif.wdatDrive))

/-- WDAT rises: open seen is cleared, the idle-time count restarts from the rise (08 R145) and the data-low count
restarts (08 R147). WCLK stays as it reads, and its count with it. -/
def State.dataRise (s : State) : State :=
  s.withLif { s.lif with openSeen := false, wdat := .high, idle := 0, dataLow := 0 }

/-- OPEN_ABANDONED: WDAT rises with open seen set, before any WCLK fall (R145). With open seen clear the rise moves the
wire and the counts alone, in every state out of a round (08 R142, R147; log 45) and in the high phase of a cell of a
round (R140; log 48). -/
def execOpenAbandoned (s : State) : Host.Outcome State Fault Refusal :=
  s.whenDue (s.lif.openSeen || s.dataRises) s.dataRise

/-- STRAY_CLOCK_FALL: WCLK falls with open seen clear on an idle line (R145). -/
def execStrayClockFall (s : State) : Host.Outcome State Fault Refusal :=
  s.whenDue (s.rdc.stage == .idle && s.noOpen)
    (s.withLif { s.lif with wclk := .low, idle := 0, clockLow := 0, dataLow := 0 })

end Sys2Proof.Machine
end

