-- ==== Sys2Proof/Machine/Port.lean ====
section
/-!
DEFINITION. The local port's requests on the pool and the queues (spec/01, spec/02, spec/10), the commands, the soft
reset, and the data bytes of a transaction (spec/09).
-/

namespace Sys2Proof.Machine

/-! ## Requests of the queue ports -/

/-- Take (01 R8). -/
def State.takeFrame (s : State) : State :=
  match s.takeReady, s.fpl.freeList with
  | true, f :: rest =>
    let t := s.setFrame f .filling
    (t.withFpl { t.fpl with freeList := rest }).withLpt { t.lpt with takeLatch := frameByteOf f }
  | _, _ => s.withLpt { s.lpt with takeLatch := Config.noneMarker }

/-- Pop inbound (01 R16). -/
def State.popInboundFrame (s : State) : State :=
  match s.ibu.inbound with
  | [] => s.withLpt { s.lpt with inboundLatch := Config.noneMarker }
  | f :: rest =>
    let t := match s.frame f with
      | .arrived r => s.setFrame f (.held r)
      | _ => s
    (t.withIbu { inbound := rest }).withLpt { t.lpt with inboundLatch := frameByteOf f }

/-- A frame that is popped as CANCELLED cannot be brought back by a mark (log 17). -/
def State.forgetUndo (s : State) (f : FrameNo) : State :=
  s.withFen { s.fen with undo := s.fen.undo.map (fun u =>
    match u.start with
    | some (.cancelled g _ _) => if g = f then { u with start := none } else u
    | _ => u) }

/-- Pop completion (01 R14, 09 R155). -/
def State.popCompletionFrame (s : State) : State :=
  match s.osc.completion with
  | [] => s.withLpt { s.lpt with completionLatch := CompletionLatch.atReset }
  | f :: rest =>
    match s.frame f with
    | .done d =>
      let t := s.setFrame f .free
      let t := t.withFpl { t.fpl with freeList := t.fpl.freeList ++ [f] }
      ((t.withOsc { t.osc with completion := rest }).withLpt { t.lpt with completionLatch := completionRecord f d }).forgetUndo f
    | _ => s

/-- The outbound descriptor fails a check of form (02 R21, 11 R172). -/
def State.malformed (s : State) (f : FrameNo) : Bool :=
  let notice := (s.frameByte f 1).getLsbD 7
  decide (Config.maxLength < (s.frameByte f 2).toNat) ||
  !descriptorReservedOk (s.frameByte f 1) (s.frameByte f 5) (s.frameByte f 6) (s.frameByte f 7) ||
  (!notice && (decide (15 < (s.frameByte f 0).toNat) || (s.frameByte f 0).toNat == s.own.val))

/-- The peer that a descriptor gives: when the notice flag is clear and destination lies in 0-15 (02 R21). -/
def State.descriptorPeer (s : State) (f : FrameNo) : Option Pos :=
  if (s.frameByte f 1).getLsbD 7 then none
  else if h : (s.frameByte f 0).toNat < 16 then some ⟨(s.frameByte f 0).toNat, h⟩
  else none

/-- The DONE record of a frame that post completes, from its descriptor (01 R10). -/
def State.postedDone (s : State) (f : FrameNo) (outcome : Completion) : DoneRecord :=
  { cls := classOf ((s.frameByte f 1).getLsbD 6), notice := (s.frameByte f 1).getLsbD 7, peer := s.descriptorPeer f
    tag := wordOf (s.frameByte f 3) (s.frameByte f 4), attempts := 0, outcome := outcome }

/-- The record of a frame that post queues, from its descriptor (01 R10). -/
def State.postedQueued (s : State) (f : FrameNo) : Posted :=
  { cls := classOf ((s.frameByte f 1).getLsbD 6), peer := s.descriptorPeer f, length := (s.frameByte f 2).toNat
    tag := wordOf (s.frameByte f 3) (s.frameByte f 4), attempts := 0, openSeq := none, postNo := s.osc.nextPost }

/-- The destination entry of a MESSAGE is ABSENT while the station is MEMBER (02 R22). -/
def State.postAbsent (s : State) (f : FrameNo) : Bool :=
  s.isMember && match s.descriptorPeer f with
    | some p => !(s.peer p).present
    | none => false

/-- Post of a FILLING frame (01 R10, 02 R21, R22). -/
def State.postFilling (s : State) (f : FrameNo) : State :=
  if s.malformed f then s.complete f (s.postedDone f .malformed)
  else if s.postAbsent f then s.complete f (s.postedDone f .peerAbsent)
  else
    let q := s.postedQueued f
    let t := s.setFrame f (.queued q)
    let t := t.withQueue q.cls (t.queueOf q.cls ++ [f])
    t.withOsc { t.osc with nextPost := t.osc.nextPost + 1 }

/-- POST (09 R156). -/
def State.postByte (s : State) (n : Byte) : State :=
  match frameArg n with
  | none => s.reportMisuse .postNotFilling none
  | some f =>
    match s.frame f with
    | .filling => s.postFilling f
    | _ => s.reportMisuse .postNotFilling (some f)

/-- Release of a HELD frame (01 R17). -/
def State.releaseHeld (s : State) (f : FrameNo) (r : InRecord) : State :=
  let t := s.setFrame f .free
  let t := t.withFpl { t.fpl with freeList := t.fpl.freeList ++ [f] }
  match r.creditBearing, r.peer with
  | true, some p => t.updPeer p (fun e => { e with owed := e.owed + 1 })
  | _, _ => t

/-- RELEASE (09 R156). -/
def State.releaseByte (s : State) (n : Byte) : State :=
  match frameArg n with
  | none => s.reportMisuse .releaseNotHeld none
  | some f =>
    match s.frame f with
    | .held r => s.releaseHeld f r
    | _ => s.reportMisuse .releaseNotHeld (some f)

/-- CANCEL (01 R12, 02 R41, 09 R156). -/
def State.cancelByte (s : State) (n : Byte) : State :=
  match frameArg n with
  | none => s.reportMisuse .cancelNotOutbound none
  | some f =>
    match s.frame f with
    | .queued q => (s.unqueue f).completeCancelled f q q.attempts
    | .sending q _ => s.setFrame f (.sending q true)
    | _ => s.reportMisuse .cancelNotOutbound (some f)

/-! ## Commands (09 R157) -/

/-- DOZE (10 R165). -/
def State.enterDoze (s : State) : State :=
  if s.wku.doze then s else let t := s.zeroCounters; t.withWku { t.wku with doze := true }

/-- RESUME (10 R166). -/
def State.leaveDoze (s : State) : State :=
  let t := s.zeroCounters
  t.withWku { t.wku with doze := false, wakeLatch := false }

/-- REJOIN, by the participation state (09 R158). From CONFLICT the station enters LISTENING, and goes on into FAULT
where the line is stuck. -/
def State.takeRejoin (s : State) : State :=
  match s.rdc.participation with
  | .member => s.withRdc { s.rdc with rejoin := true }
  | .conflict => s.enterListening
  | .listening | .observing | .joining | .fault => s

/-- SOFT_RESET (09 R159): every block takes its reset values, the sampled straps and frame memory are kept, both
wires are released, and the transaction that carried it takes no further byte, with SDO shifting 0x00. The wires read
as they did, less this station's drive (log 6). -/
def State.softReset (s : State) : State :=
  let t := State.afterReset s.lif.straps s.fpl.mem s.fpl.memEpoch .blocked (some 0) s.pending
  t.withLif { t.lif with wclk := s.lif.released.wclk, wdat := s.lif.released.wdat }

/-- A command code taken at the COMMAND port (09 R157, 11 Table 11-9). -/
def State.commandByte (s : State) (code : Byte) : State :=
  if code = 0x11 then s.enterDoze
  else if code = 0x12 then s.leaveDoze
  else if code = 0x21 then s.takeRejoin
  else if code = 0x5A then s.softReset
  else s.reportMisuse .badCommand none

/-! ## Transactions (09 R150 to R155) -/

/-- A transaction begins: CS was released before it and is asserted, and its first two bytes give direction and start
address (log 10). SDO shifts 0x00 during them. -/
def State.beginTxn (s : State) (read : Bool) (a : Addr) : State :=
  s.withLpt { s.lpt with
    txn := .active { read := read, addr := a, statusCapture := none, peerCaptures := [], refusedReported := false }
    sdo := some 0 }

/-- Change the transaction in progress. -/
def State.updTxn (s : State) (g : ActiveTxn → ActiveTxn) : State :=
  match s.lpt.txn with
  | .active t => s.withLpt { s.lpt with txn := .active (g t) }
  | .idle | .blocked => s

/-- The frame that contains an address of frame memory (01 R1). -/
def frameAt (a : Nat) : FrameNo := Fin.ofNat 48 (a / Config.frameBytes)

/-- A refused byte of frame memory: the transaction reports its first one only (01 R19). -/
def State.refuseByte (s : State) (t : ActiveTxn) (kind : MisuseKind) (f : FrameNo) : State :=
  if t.refusedReported then s
  else (s.reportMisuse kind (some f)).updTxn (fun u => { u with refusedReported := true })

/-- A read data byte of frame memory (01 Table 1-5). -/
def State.readFrameByte (s : State) (t : ActiveTxn) (a : Nat) : Byte × State :=
  match s.frame (frameAt a) with
  | .filling | .held _ => (s.memByte a, s)
  | _ => (0, s.refuseByte t .readNotOwned (frameAt a))

/-- A read data byte of the status area, from the transaction's capture (09 R160). -/
def State.readStatus (s : State) (t : ActiveTxn) (i : Nat) : Byte × State :=
  match t.statusCapture with
  | some c => (c.getD i 0, s)
  | none => (s.statusArea.getD i 0, s.updTxn (fun u => { u with statusCapture := some s.statusArea }))

/-- A read data byte of the peer view, from the transaction's capture of that entry (05 R99). -/
def State.readPeerView (s : State) (t : ActiveTxn) (p : Pos) (i : Nat) : Byte × State :=
  match t.peerCaptures.lookup p with
  | some v => (v.byte i, s)
  | none =>
    let v := (s.peer p).view
    (v.byte i, s.updTxn (fun u => { u with peerCaptures := (p, v) :: u.peerCaptures }))

/-- A read data byte of the control area, the peer view, the wake tables and the unassigned addresses (09 R152, R153,
11 Table 11-4). A port that acts, acts on the first data byte of the transaction at its base address; otherwise the
port's latch is returned. -/
def State.readPort (s : State) (first : Bool) (t : ActiveTxn) (a : Nat) : Byte × State :=
  if a = 0xC01 then
    let u := if first then s.takeFrame else s
    (u.lpt.takeLatch, u)
  else if a = 0xC03 then
    let u := if first then s.popInboundFrame else s
    (u.lpt.inboundLatch, u)
  else if 0xC05 ≤ a ∧ a ≤ 0xC09 then
    let u := if first = true ∧ a = 0xC05 then s.popCompletionFrame else s
    (u.lpt.completionLatch.byte (a - 0xC05), u)
  else if a = 0xC19 then (s.lpt.enable, s)
  else if 0xC20 ≤ a ∧ a ≤ 0xC2F then s.readStatus t (a - 0xC20)
  else if 0xC30 ≤ a ∧ a ≤ 0xC35 then
    ((s.wakeEntry (Fin.ofNat 3 ((a - 0xC30) / 2))).settingsByte (a % 2), s)
  else if 0xC40 ≤ a ∧ a ≤ 0xC7F then s.readPeerView t (Fin.ofNat 16 ((a - 0xC40) / 4)) (a % 4)
  else if 0xC80 ≤ a ∧ a ≤ 0xC8B then
    ((s.wakeEntry (Fin.ofNat 3 ((a - 0xC80) / 4))).tagByte (a % 4), s)
  else (0, s)

/-- A read data byte is taken at the current address, stands on SDO, and the current address rises by 1, wrapping from
0xFFF to 0x000 (09 R150). -/
def State.takeRead (s : State) (first : Bool) (t : ActiveTxn) : State :=
  let r := if t.addr.toNat < Config.frameMemoryBytes then s.readFrameByte t t.addr.toNat
           else s.readPort first t t.addr.toNat
  (r.2.updTxn (fun u => { u with addr := u.addr + 1 })).withLpt
    { (r.2.updTxn (fun u => { u with addr := u.addr + 1 })).lpt with sdo := some r.1 }

/-- A written data byte of frame memory (01 Table 1-5). -/
def State.writeFrameByte (s : State) (t : ActiveTxn) (a : Nat) (v : Byte) : State :=
  match s.frame (frameAt a) with
  | .filling => s.writeMem a v
  | _ => s.refuseByte t .writeNotFilling (frameAt a)

/-- A written data byte elsewhere (09 R152, R153, R157, R162; 11 R171). -/
def State.writePort (s : State) (first : Bool) (a : Nat) (v : Byte) : State :=
  if a = 0xC10 then if first then s.postByte v else s
  else if a = 0xC11 then if first then s.releaseByte v else s
  else if a = 0xC12 then if first then s.cancelByte v else s
  else if a = 0xC13 then if first then s.commandByte v else s
  else if a = 0xC18 then if first then s.clearEvents v else s
  else if a = 0xC19 then s.withLpt { s.lpt with enable := v }
  else if 0xC30 ≤ a ∧ a ≤ 0xC35 then
    s.updWake (Fin.ofNat 3 ((a - 0xC30) / 2)) (fun e => e.setSettingsByte (a % 2) v)
  else if 0xC80 ≤ a ∧ a ≤ 0xC8B then
    s.updWake (Fin.ofNat 3 ((a - 0xC80) / 4)) (fun e => e.setTagByte (a % 4) v)
  else s

/-- A written data byte is taken at the current address, which then rises by 1; SDO shifts 0x00 (09 R150). -/
def State.takeWrite (s : State) (first : Bool) (t : ActiveTxn) (v : Byte) : State :=
  let r := if t.addr.toNat < Config.frameMemoryBytes then s.writeFrameByte t t.addr.toNat v
           else s.writePort first t.addr.toNat v
  r.updTxn (fun u => { u with addr := u.addr + 1 })

/-- A read data byte: the first of a new transaction at an address, or the next of the read transaction in
progress. While RESET is asserted the port ignores SCK, SDI and CS (09 R151). -/
def State.portRead (s : State) (start : Option Addr) : State :=
  if s.resetAsserted then s
  else
    match start with
    | some a =>
      (s.beginTxn true a).takeRead true
        { read := true, addr := a, statusCapture := none, peerCaptures := [], refusedReported := false }
    | none =>
      match s.lpt.txn with
      | .active t => if t.read then s.takeRead false t else s
      | .idle | .blocked => s

/-- A written data byte, likewise. -/
def State.portWrite (s : State) (start : Option Addr) (v : Byte) : State :=
  if s.resetAsserted then s
  else
    match start with
    | some a =>
      (s.beginTxn false a).takeWrite true
        { read := false, addr := a, statusCapture := none, peerCaptures := [], refusedReported := false } v
    | none =>
      match s.lpt.txn with
      | .active t => if t.read then s else s.takeWrite false t v
      | .idle | .blocked => s

/-- CS is released: the transaction ends and SDO is not driven (09 R150). -/
def State.endTxn (s : State) : State := s.withLpt { s.lpt with txn := .idle, sdo := none }

end Sys2Proof.Machine
end

