-- ==== Sys2Proof/Machine/LocalPort.lean ====
section
/-!
DEFINITION. The meanings of the local port's commands: a transaction that begins at a port that acts, or a data byte
(spec/09).
-/

namespace Sys2Proof.Machine

/-- TAKE: a read transaction that begins at 0xC01 (R154, R8). -/
def execTake (s : State) : Host.Outcome State Fault Refusal := .next (s.portRead (some 0xC01))

/-- POP_INBOUND: a read transaction that begins at 0xC03 (R16, R154). -/
def execPopInbound (s : State) : Host.Outcome State Fault Refusal := .next (s.portRead (some 0xC03))

/-- POP_COMPLETION: a read transaction that begins at 0xC05 (R14, R155). -/
def execPopCompletion (s : State) : Host.Outcome State Fault Refusal := .next (s.portRead (some 0xC05))

/-- POST: a write transaction that begins at 0xC10 (R10, R21, R22, R156). -/
def execPost (n : Byte) (s : State) : Host.Outcome State Fault Refusal := .next (s.portWrite (some 0xC10) n)

/-- RELEASE: a write transaction that begins at 0xC11 (R17, R156). -/
def execRelease (n : Byte) (s : State) : Host.Outcome State Fault Refusal := .next (s.portWrite (some 0xC11) n)

/-- CANCEL: a write transaction that begins at 0xC12 (R12, R41, R156). -/
def execCancel (n : Byte) (s : State) : Host.Outcome State Fault Refusal := .next (s.portWrite (some 0xC12) n)

/-- DOZE: code 0x11 at COMMAND, 0xC13 (R157, R165). -/
def execDoze (s : State) : Host.Outcome State Fault Refusal := .next (s.portWrite (some 0xC13) 0x11)

/-- RESUME: code 0x12 (R157, R166). -/
def execResume (s : State) : Host.Outcome State Fault Refusal := .next (s.portWrite (some 0xC13) 0x12)

/-- REJOIN: code 0x21 (R157, R158). -/
def execRejoin (s : State) : Host.Outcome State Fault Refusal := .next (s.portWrite (some 0xC13) 0x21)

/-- SOFT_RESET: code 0x5A (R157, R159). -/
def execSoftReset (s : State) : Host.Outcome State Fault Refusal := .next (s.portWrite (some 0xC13) 0x5A)

/-- BAD_COMMAND: any other code (R157). A code that names a command is that command (log 34). -/
def execBadCommand (code : Byte) (s : State) : Host.Outcome State Fault Refusal := .next (s.portWrite (some 0xC13) code)

/-- EVENT_CLEAR: a write transaction that begins at 0xC18 (R162). -/
def execEventClear (v : Byte) (s : State) : Host.Outcome State Fault Refusal := .next (s.portWrite (some 0xC18) v)

/-- REGISTER_WRITE: a written data byte at EVENT_ENABLE, the wake settings or the wake tag table (R152, R162,
R167). -/
def execRegisterWrite (start : Option Addr) (v : Byte) (s : State) : Host.Outcome State Fault Refusal :=
  .next (s.portWrite start v)

/-- FRAME_MEMORY_READ: a read data byte, judged by its own address (R19, R152; log 11). -/
def execFrameMemoryRead (start : Option Addr) (s : State) : Host.Outcome State Fault Refusal :=
  .next (s.portRead start)

/-- FRAME_MEMORY_WRITE: a written data byte, judged by its own address (R19, R152). -/
def execFrameMemoryWrite (start : Option Addr) (v : Byte) (s : State) : Host.Outcome State Fault Refusal :=
  .next (s.portWrite start v)

/-- TRANSACTION_END: CS is released, at any time (R150; during RESET R151). -/
def execTransactionEnd (s : State) : Host.Outcome State Fault Refusal := .next s.endTxn

end Sys2Proof.Machine
end

