-- ==== Sys2Proof/Machine/Resets.lean ====
section
/-!
DEFINITION. The meanings of the RESET pin's two edges (spec/08 R137, spec/09 R151, spec/06 R100).
-/

namespace Sys2Proof.Machine

/-- CS stays as it is over a pin reset: with CS asserted nothing is taken until it has been released (09 R151). -/
def Txn.afterPinReset (t : Txn) : Txn :=
  match t with
  | .idle => .idle
  | .blocked | .active _ => .blocked

/-- While RESET is asserted both wires are released, the phase is NONE, open seen is clear, every count is 0, and the
transaction in progress is abandoned (08 R137, 09 R151). IRQ and WAKE are inactive by `State.irq`, `State.wake`. -/
def State.assertReset (s : State) : State :=
  let t := s.withLif { Lif.atReset s.lif.straps with wclk := s.lif.released.wclk, wdat := s.lif.released.wdat }
  let t := t.withLpt { t.lpt with txn := t.lpt.txn.afterPinReset, sdo := none }
  { t with resetAsserted := true }

/-- RESET_ASSERT (R137). A second assertion finds RESET asserted and changes nothing. -/
def execResetAssert (s : State) : Host.Outcome State Fault Refusal :=
  .next (if s.resetAsserted then s else s.assertReset)

/-- At the release of RESET the straps are sampled, and every block has its reset values; the contents of frame
memory are undefined afresh (08 R137, 06 R100, 01 R20; log 22). -/
def State.releaseReset (s : State) (straps : Straps) : State :=
  State.afterReset straps [] (s.fpl.memEpoch + 1) s.lpt.txn.afterPinReset none s.pending

/-- RESET_RELEASE (R100, R137). A release tells that RESET was asserted before it (log 23). -/
def execResetRelease (straps : Straps) (s : State) : Host.Outcome State Fault Refusal :=
  .next (s.releaseReset straps)

end Sys2Proof.Machine
end

