-- ==== Sys2Proof/Machine/RoundEnd.lean ====
section
/-!
DEFINITION. The meanings of the commands of the CARRY cell: the drive, the chained round, the round's end (spec/06
section 6.8, spec/08 R146).
-/

namespace Sys2Proof.Machine

/-- A MEMBER drives CARRY when its chain count is below 8 and it has a reason (06 R117). -/
def State.wantsCarry (s : State) : Bool :=
  s.isMember && decide (s.rdc.chain < Config.chainLimit) && (s.hasTransmission || s.rdc.rejoin)

/-- The fall of the CARRY cell, where the decision is made (08 R140). -/
def State.beginCarry (s : State) : State :=
  (s.withRdc { s.rdc with stage := .carryCell }).fall s.clocks s.wantsCarry

/-- CARRY_DRIVE (R117). An OBSERVING station does not drive the cell. -/
def execCarryDrive (s : State) : Host.Outcome State Fault Refusal :=
  s.whenDue ((s.isMember || s.isObserving) && s.rdc.stage == .carry) s.beginCarry

/-- The CARRY cell is read: by a MEMBER after its decision, by an OBSERVING station whether or not the fall of the
cell was given as a command. -/
def State.readsCarry (s : State) : Bool :=
  (s.isMember && s.rdc.stage == .carryCell) ||
  (s.isObserving && (s.rdc.stage == .carryCell || s.rdc.stage == .carry))

/-- An OBSERVING station completes its observation at the CARRY cell whatever it reads (06 R103, R119). -/
def State.completeObservation (s : State) : State :=
  if s.isObserving then s.withRdc { s.rdc with joinPending := true } else s

/-- The chained round starts at the fall after the CARRY cell (06 R118, 08 R146): the chain count rises by 1 and stays
at 8. -/
def State.startChained (s : State) : State :=
  let t := (s.completeObservation).beginRound (min Config.chainLimit (s.rdc.chain + 1))
  t.leadFall (t.clocks)

/-- CHAINED_ROUND_START (R118): a CARRY cell read LOW. -/
def execChainedRoundStart (s : State) : Host.Outcome State Fault Refusal := s.whenDue s.readsCarry s.startChained

/-- The round ends at the rise of a CARRY cell read HIGH (06 R119, 08 R146). -/
def State.endRound (s : State) : State :=
  let t := s.completeObservation
  let t := t.withRdc { t.rdc with
    chain := 0, claimants := [], window := none, sweep := .running 0, stage := .idle }
  let t := t.withFen { t.fen with undo := none }
  t.rise false false .high

/-- ROUND_END (R119). A CARRY cell that this station drives does not read HIGH. -/
def execRoundEnd (s : State) : Host.Outcome State Fault Refusal :=
  s.whenDue (s.readsCarry && !s.lif.wdatDrive) s.endRound

end Sys2Proof.Machine
end

