-- ==== Sys2Proof/Machine/Fields.lean ====
section
/-!
DEFINITION. The meanings of the commands of the LEAD, PRESENCE, JOIN and CLAIM fields (spec/06 sections 6.6, 6.7,
spec/05). The operand is what the other stations leave; the station's own drive is joined to it (log 2). Each field's
end is the rise of its last cell.
-/

namespace Sys2Proof.Machine

/-! ## LEAD -/

/-- The value read in the LEAD field: the bitwise AND of the views driven (06 R111). -/
def State.leadRead (s : State) (others : BitVec 4) : BitVec 4 := others &&& s.leadOut

/-- The end of the LEAD field: the lead view becomes the value read (06 R111), at a rejoining station too, whose lead
view 06 R104 has unchanged until the end of the JOIN field (log 46). -/
def State.endLead (s : State) (others : BitVec 4) : State :=
  let lead := s.leadRead others
  let t := s.withRdc { s.rdc with leadView := some (Fin.ofNat 16 lead.toNat), stage := .presence }
  t.rise s.clocks (!s.leadOut.getLsbD 0) (levelOf (lead.getLsbD 0))

/-- LEAD_FIELD_END (R111). -/
def execLeadFieldEnd (others : BitVec 4) (s : State) : Host.Outcome State Fault Refusal :=
  s.whenDue (s.readsLine && s.rdc.stage == .lead) (s.endLead others)

/-! ## PRESENCE -/

/-- A cell that this station does not drive is sampled LOW at its rise (08 R140), and the station enters CONFLICT
(06 R106). -/
def State.conflictAtCell (s : State) : State := (s.rise s.clocks false .low).enterConflict

/-- OWN_PRESENCE_CELL_LOW: an OBSERVING station reads its own PRESENCE cell LOW (R103). -/
def execOwnPresenceCellLow (s : State) : Host.Outcome State Fault Refusal :=
  s.whenDue (s.isObserving && s.rdc.stage == .presence) s.conflictAtCell

/-- What the station leaves of the PRESENCE field (06 R112). -/
def State.presenceOut (s : State) : Cells := ownCell s.drivesLine s.own

/-- Presence counting for one peer (05 R84, R85). -/
def State.countPresence (cells : Cells) (s : State) (p : Pos) : State :=
  let e := s.peer p
  if !e.present then s
  else if cellLow cells p then s.setPeer p { e with missed := 0 }
  else if Config.maxMissed ≤ e.missed + 1 then s.losePeer p Config.maxMissed .peerLost
  else s.setPeer p { e with missed := e.missed + 1 }

/-- The end of the PRESENCE field: the record is kept, and a MEMBER counts presence in ascending position order
(06 R112, 05 R84). An OBSERVING station that reads its own cell LOW enters CONFLICT at that cell
(06 R103; log 30). -/
def State.endPresence (s : State) (others : Cells) : State :=
  let cells := others &&& s.presenceOut
  if s.isObserving && cellLow cells s.own then s.conflictAtCell
  else
    let t := s.withRdc { s.rdc with presence := cells, stage := .join }
    let t := if s.isMember then t.peerPositions.foldl (State.countPresence cells) t else t
    t.rise s.clocks (s.drivesLine && s.own == 15) (levelOf (cells.getLsbD 15))

/-- PRESENCE_FIELD_END (R84, R112). -/
def execPresenceFieldEnd (others : Cells) (s : State) : Host.Outcome State Fault Refusal :=
  s.whenDue (s.readsLine && s.rdc.stage == .presence) (s.endPresence others)

/-! ## JOIN -/

/-- What the station leaves of the JOIN field (06 R113). -/
def State.joinOut (s : State) : Cells := ownCell s.isJoining s.own

/-- Join processing at a MEMBER for one peer (05 R89). -/
def State.processJoin (cells : Cells) (s : State) (p : Pos) : State :=
  if cellLow cells p then s.reinitPeer p else s

/-- An unexpected member (05 R91). -/
def State.unexpected (s : State) (cells : Cells) (p : Pos) : Bool :=
  cellLow s.rdc.presence p && !cellLow cells p && !(s.peer p).present

/-- Join processing at a MEMBER: joins, then unexpected members (05 R89, R91). -/
def State.memberJoins (s : State) (cells : Cells) : State :=
  let t := s.peerPositions.foldl (State.processJoin cells) s
  if t.peerPositions.any (t.unexpected cells) then t.withRdc { t.rdc with rejoin := true } else t

/-- The setting of one entry at the station's own join round (05 R94). -/
def State.setEntry (cells : Cells) (s : State) (p : Pos) : State :=
  if cellLow s.rdc.presence p || cellLow cells p then s.reinitPeer p
  else if (s.peer p).present then
    s.losePeer p 0 (if s.rdc.joinFromMember then .peerLost else .peerAbsent)
  else s.completeAllTo p .peerAbsent

/-- The station's own join round: every entry is set and the station becomes MEMBER (05 R94, R95). -/
def State.ownJoin (s : State) (cells : Cells) : State :=
  let t := s.peerPositions.foldl (State.setEntry cells) s
  (t.withRdc { t.rdc with participation := .member, rejoin := false, joinFromMember := false }).latchJoined

/-- The end of the JOIN field, by the participation state (06 R113). -/
def State.endJoin (s : State) (others : Cells) : State :=
  let cells := others &&& s.joinOut
  let t := match s.rdc.participation with
    | .member => s.memberJoins cells
    | .joining => s.ownJoin cells
    | .listening | .observing | .conflict | .fault => s
  (t.withRdc { t.rdc with stage := .claim }).rise s.clocks (s.isJoining && s.own == 15) (levelOf (cells.getLsbD 15))

/-- JOIN_FIELD_END (R113, R89, R94). -/
def execJoinFieldEnd (others : Cells) (s : State) : Host.Outcome State Fault Refusal :=
  s.whenDue (s.readsLine && s.rdc.stage == .join) (s.endJoin others)

/-! ## CLAIM -/

/-- The own CLAIM cell of a MEMBER: the choice, the drive and the cell as read (06 R114, 02 R27, R28). A cell read LOW
that the station did not drive is a conflict (06 R106). -/
def State.ownClaim (s : State) (others : Level) : State :=
  match s.choice with
  | some t =>
    let u := s.claimSlot t
    (u.withRdc { u.rdc with stage := .claimed }).rise s.clocks true .low
  | none =>
    match others with
    | .low => s.conflictAtCell
    | .high => (s.withRdc { s.rdc with stage := .claimed }).rise s.clocks false .high

/-- OWN_CLAIM_CELL (R114). -/
def execOwnClaimCell (others : Level) (s : State) : Host.Outcome State Fault Refusal :=
  s.whenDue (s.isMember && s.rdc.stage == .claim && s.osc.slot.isNone) (s.ownClaim others)

/-- Position p is a claimant: its cell read LOW. A MEMBER's own cell is as it read it at the cell itself: LOW exactly
when it drove it (06 R114). -/
def State.claims (s : State) (cells : Cells) (p : Pos) : Bool :=
  if s.isMember && p == s.own then s.osc.slot.isSome else cellLow cells p

/-- The positions in window order from the lead (06 R115). -/
def windowOrder (lead : Pos) : List Pos := (List.finRange 16).map (fun i => lead + i)

/-- The staging buffer at the first header cell of a window (03 R48). -/
def Staging.start (owner : Pos) : Staging :=
  { owner := owner, header := [], headerState := .arriving, fields := none, payload := []
    checkState := some .arriving, valid := true }

/-- The end of the CLAIM field: the claimant list in window order, the next lead, the first window (06 R115, R116). -/
def State.endClaim (s : State) (others : Cells) : State :=
  let lead := s.rdc.leadView.getD 15
  let list := (windowOrder lead).filter (s.claims others)
  let drove := s.isMember && s.osc.slot.isSome && s.own == 15
  let read := levelOf (!s.claims others 15)
  match list with
  | [] =>
    (s.withRdc { s.rdc with claimants := [], window := none, leadView := some lead, stage := .carry }).rise s.clocks
      drove read
  | first :: _ =>
    let t := s.withRdc { s.rdc with claimants := list, window := some 0, leadView := some (first + 1), stage := .header }
    let t := t.withFen { t.fen with
      staging := Staging.start first, tx := none, size := none, decision := none
      answerA := false, answerB := false, undo := none }
    t.rise s.clocks drove read

/-- CLAIM_FIELD_END (R114, R115, R116), after the own cell of a MEMBER. -/
def execClaimFieldEnd (others : Cells) (s : State) : Host.Outcome State Fault Refusal :=
  s.whenDue ((s.isMember && s.rdc.stage == .claimed) || (s.isObserving && s.rdc.stage == .claim)) (s.endClaim others)

end Sys2Proof.Machine
end

