-- ==== Sys2Proof/Machine/Windows.lean ====
section
/-!
DEFINITION. The meanings of the commands of the TRANSFER field (spec/07, spec/02 sections 2.5 and 2.6, spec/03): the
own window from its start to its outcome, and the windows of other owners from header to answer.
-/

namespace Sys2Proof.Machine

/-! ## The own window: start, collision, EMPTY -/

/-- The transmission of the own window has started and has not collided. -/
def State.ownSending (s : State) : Bool :=
  match s.fen.tx with
  | some t => s.ownWindow && t.collidedAt.isNone
  | none => false

/-- The transmission of the own window has started and has collided (07 R130). -/
def State.ownCollided (s : State) : Bool :=
  match s.fen.tx with
  | some t => s.ownWindow && t.collidedAt.isSome
  | none => false

/-- What this station's claimant drives in cell n of the window. -/
def State.ownDrives (s : State) (n : Nat) : Bool :=
  match s.fen.tx with
  | some t => s.ownWindow && t.drives n
  | none => false

/-- WINDOW_START: the first header cell of the own window (R31, R42, R66, R75, R78). -/
def State.beginOwnWindow (s : State) : State :=
  let t := s.startWindow
  t.fall t.clocks (t.ownDrives 0)

/-- WINDOW_START (R31). -/
def execWindowStart (s : State) : Host.Outcome State Fault Refusal :=
  s.whenDue (s.ownWindow && s.rdc.stage == .header && s.fen.tx.isNone && s.osc.slot.isSome) s.beginOwnWindow

/-- Cell n is one that the claimant compares: released by it, in its header, payload or frame check, in the part of
the window now on the line (07 R130). -/
def State.comparesCell (s : State) (n : Nat) : Bool :=
  match s.fen.tx with
  | some t =>
    t.bit n && decide (n < 8 * t.bytes.length) &&
    ((s.rdc.stage == .header && decide (n < 56)) || (s.rdc.stage == .body && decide (56 ≤ n)))
  | none => false

/-- The claimant has COLLIDED at cell n and drives no data cell after it (07 R130). -/
def State.noteCollision (s : State) (n : Nat) : State :=
  s.withFen { s.fen with tx := s.fen.tx.map (fun t => { t with collidedAt := some n }), undo := none }

/-- The collision comparison of cell n, on the sample of its rise (08 R140, 07 R130). -/
def State.compareCell (s : State) (n : Nat) (others : Level) : State :=
  if s.ownSending && s.comparesCell n && others == .low then s.noteCollision n else s

/-- A cell that the claimant compares reads LOW at its rise. -/
def State.collide (s : State) (n : Nat) : State :=
  let t := s.noteCollision n
  t.rise t.clocks false .low

/-- COLLISION (R130). -/
def execCollision (cell : Nat) (s : State) : Host.Outcome State Fault Refusal :=
  s.whenDue (s.ownSending && s.comparesCell cell) (s.collide cell)

/-! ### The staging buffer in the own window (03 R48) -/

/-- The header cells of the own window as read, at their end. A claimant that has not collided reads what it sends; no
header state is fixed (03 R48, 07 R124). -/
def State.readOwnHeader (s : State) : State :=
  match s.fen.tx with
  | some t =>
    if s.ownSending then s.withFen { s.fen with staging := { s.fen.staging with header := t.headerOnLine } } else s
  | none => s

/-- The payload cells of the own window as read, where no command gave them before the end of the window (log 44). -/
def State.readOwnPayload (s : State) : State :=
  match s.fen.tx with
  | some t =>
    if s.ownSending && s.rdc.stage == .body then
      s.withFen { s.fen with staging := { s.fen.staging with payload := t.payload } }
    else s
  | none => s

/-- The collision streak is counted when the own transmission is settled; at 3 the station enters CONFLICT, after the
settlement (07 R131, 06 R106). -/
def State.countStreak (s : State) (collided : Bool) : State :=
  if collided then
    if Config.maxStreak ≤ s.rdc.streak + 1 then s.enterConflict
    else s.withRdc { s.rdc with streak := s.rdc.streak + 1 }
  else s.withRdc { s.rdc with streak := 0 }

/-- The end of the header cells of an own EMPTY: at stage header without a collision, at stage mark after one, since
the collided claimant has then read the header (07 R130). A GOOD header of another source, read by that claimant at the
same cell, takes the station out of the round before this settlement (log 42). -/
def State.emptyDue (s : State) : Bool :=
  s.osc.slot == some .empty &&
  ((s.ownSending && s.rdc.stage == .header) || (s.ownCollided && s.rdc.stage == .mark))

/-- An own EMPTY is settled: the slot empties and no record, entry or queue changes (02 R39). -/
def State.settleEmpty (s : State) : State :=
  let t := s.readOwnHeader.setSlot none
  let t := t.withRdc { t.rdc with stage := .mark }
  let t := t.withFen { t.fen with undo := none }
  (t.rise t.clocks false t.lif.wdat).countStreak s.ownCollided

/-- EMPTY_SETTLEMENT (R39, R131). -/
def execEmptySettlement (s : State) : Host.Outcome State Fault Refusal :=
  s.whenDue s.emptyDue s.settleEmpty

/-! ## The header of a window (07 R124, R132; 03 R48 to R50) -/

/-- The header bytes as read: the other stations' drive and, in the own window, this claimant's. -/
def State.headerRead (s : State) (bytes : List Byte) : List Byte :=
  match s.fen.tx with
  | some t => if s.ownWindow then wiredAnd (lineBytes 7 bytes) t.headerOnLine else lineBytes 7 bytes
  | none => lineBytes 7 bytes

/-- A header is read to its end: in every window of another owner, and in the own window after a collision
(07 R124). -/
def State.readsHeader (s : State) : Bool :=
  s.readsLine && s.rdc.stage == .header && s.windowOwner.isSome && (!s.ownWindow || s.ownCollided)

/-- Cell 55: the header state is fixed. A GOOD header from another source than the window owner is a sync loss,
also where the own window carried a collided EMPTY, whose settlement falls at the same cell: the sync loss comes first
(log 42). The decision for a BAD header of a judged window falls due here. -/
def State.endHeader (s : State) (bytes : List Byte) : State :=
  let read := s.headerRead bytes
  let verdict := readHeader read
  let drove := s.ownDrives 55
  let t := s.withFen { s.fen with
    staging := { s.fen.staging with
      header := read, headerState := verdict.1, fields := verdict.2
      checkState := if verdict.1 = .good then some .arriving else none }
    decision := if verdict.1 = .bad ∧ s.judges = true then some .damagedBoth else none
    undo := none }
  let t := (t.withRdc { t.rdc with stage := .mark }).rise t.clocks drove
    (levelOf ((read.getD 6 0xFF).getLsbD 0))
  match verdict.2 with
  | some h => if some h.source = s.windowOwner then t else t.syncLoss
  | none => t

/-- HEADER_END (R124, R132). -/
def execHeaderEnd (bytes : List Byte) (s : State) : Host.Outcome State Fault Refusal :=
  s.whenDue s.readsHeader (s.endHeader bytes)

/-! ## The mark cell (07 R127, R128; 08 R141) -/

/-- The window ended as EMPTY at this station: read EMPTY, or the own EMPTY, settled and not collided. -/
def State.endedEmpty (s : State) : Bool :=
  s.rdc.stage == .mark &&
  (s.fen.staging.headerState == .empty && !s.ownWindow ||
   match s.fen.tx with
   | some t => s.ownSending && t.isEmpty && s.osc.slot.isNone
   | none => false)

/-- This station marks the window: a MEMBER that read the header BAD (07 R127). -/
def State.marks (s : State) : Bool :=
  s.isMember && s.rdc.stage == .mark && s.fen.staging.headerState == .bad

/-- The low phase of cell 56 as read is stretched (08 R141): the wire shows the longest hold. -/
def State.stretched (s : State) (lowPhase : Nat) : Bool :=
  decide (Config.stretchThreshold ≤ max lowPhase (if s.marks then Config.markHold else 0))

/-- The window is sized (07 R128). -/
def State.sizeWindow (s : State) (size : Nat) (stage : Stage) : State :=
  (s.withFen { s.fen with size := some size }).withRdc { s.rdc with stage := stage }

/-- The mark follows an EMPTY header: the window goes on to 523 cells, and what was done at the fall of its cell 56 is
undone (07 R128). The drive of WDAT set at that fall lasts to the fall of cell 57, which lies in the command that ends the
window (08 R140; logs 29, 49). -/
def State.undoMark (s : State) (u : Undo) (others : Level) : State :=
  let t := match u.start with
    | some w => s.undoStart w
    | none => s
  let t := t.withFen { t.fen with
    staging := u.staging, tx := u.tx, size := some Config.markedWindow, decision := none, undo := none }
  let t := t.withRdc { t.rdc with window := u.window, stage := .judged }
  t.rise t.clocks s.lif.wdatDrive others

/-- No mark follows: what was done at the fall of cell 56 stands, and in the own window the cell is its cell 0. -/
def State.keepStart (s : State) (others : Level) : State :=
  ((s.withFen { s.fen with undo := none }).rise s.clocks s.lif.wdatDrive others).compareCell 0 others

/-- The mark cell of a window whose header has been read or sent (07 R128). -/
def State.sizeAtMark (s : State) (stretched : Bool) : State :=
  if s.endedEmpty then
    if stretched then s.sizeWindow Config.markedWindow .judged else s.sizeWindow Config.emptyWindow .answered
  else if s.ownSending then
    match s.fen.tx with
    | some t =>
      s.readOwnHeader.sizeWindow (if stretched then Config.markedWindow else Config.frameWindow t.payload.length) .body
    | none => s
  else
    match s.fen.staging.fields with
    | some h => s.sizeWindow (if stretched then Config.markedWindow else Config.frameWindow h.length) .body
    | none =>
      -- BAD: a MEMBER has marked it; an OBSERVING station that reads no mark has lost sync
      if stretched then s.sizeWindow Config.markedWindow .judged else s.syncLoss

/-- A mark cell is due: after a header read or settled, or in an own window that sends a frame. An own EMPTY is
settled before its mark cell. -/
def State.markDue (s : State) : Bool :=
  s.readsLine &&
  ((s.rdc.stage == .mark && s.osc.slot != some .empty) ||
   (s.rdc.stage == .mark && !s.ownWindow) ||
   (s.rdc.stage == .header && s.ownSending && s.osc.slot != some .empty))

/-- The rise of the mark cell: its low phase measured (08 R141) and WDAT sampled and, in the own window, compared (08
R140, 07 R130; log 43). The window keeps the size of the header sent. The cell after an EMPTY header may already have
begun the next window or the CARRY cell; where it has not, its sample is not compared as cell 0 of an own next window
(log 21). -/
def State.markCell (s : State) (read : MarkRead) : State :=
  let stretched := s.stretched read.lowPhase
  match s.fen.undo with
  | some u => if stretched then s.undoMark u read.others else s.keepStart read.others
  | none =>
    if s.markDue then
      ((s.rise s.clocks (s.ownDrives 56) read.others).sizeAtMark stretched).compareCell 56 read.others
    else s

/-- The low phase of the mark cell outlasts the clock-low threshold: the line is stuck, and the station in FAULT, before
WCLK rises (08 R147). -/
def State.stuckInMark (s : State) (others : Level) : State :=
  ((s.holdLow .wclk).takeStuck).rise false false others

/-- MARK_CELL (R127, R128). -/
def execMarkCell (read : MarkRead) (s : State) : Host.Outcome State Fault Refusal :=
  s.whenDue (s.readsLine && (s.fen.undo.isSome || s.markDue))
    (if Config.clockStuckAbove < read.lowPhase then s.stuckInMark read.others else s.markCell read)

/-! ## The frame check and the decision (07 R125; 03 R49 to R57) -/

/-- The last frame-check cell: the check state is fixed, and the judging station decides and carries out the effects
in one act (03 R51). -/
def State.endCheck (s : State) (h : HeaderFields) (payload : List Byte) (check : BitVec 16) : State :=
  let bytes := lineBytes h.length payload
  let good := crc16 (s.fen.staging.header ++ bytes) == check
  let t := s.withFen { s.fen with
    staging := { s.fen.staging with payload := bytes, checkState := some (if good then .good else .failed) }
    decision := if s.judges then some (s.decideFrame h good) else none }
  let t := (t.withRdc { t.rdc with stage := .judged }).rise t.clocks false (levelOf (check.getLsbD 0))
  if s.judges then t.applyDecision h good bytes else t

/-- The header fields of the window being read, where a frame check is awaited: a GOOD header at stage body. -/
def State.awaitsCheck (s : State) : Option HeaderFields :=
  if s.readsLine && s.rdc.stage == .body && !s.ownSending then s.fen.staging.fields else none

/-- The payload and frame check of the own window, where this claimant has fixed no GOOD header: it has not collided,
or collided after the header (07 R130). -/
def State.ownBody (s : State) : Option Tx :=
  if s.ownWindow && s.rdc.stage == .body && (s.ownSending || s.fen.staging.fields.isNone) then s.fen.tx else none

/-- The claimant after its payload and frame check, which the others leave as given: one that had not collided has
compared every cell it released, and collided at the first that read LOW (07 R130). -/
def Tx.afterBody (x : Tx) (payload : List Byte) (check : BitVec 16) : Tx :=
  match x.collidedAt with
  | some _ => x
  | none => { x with
      collidedAt := x.firstCollision (emptyHeader ++ lineBytes x.payload.length payload ++ bytesOf16 check) }

/-- The last frame-check cell of the own window: the payload bytes as read, this claimant's drive and the other
stations', fill the staging buffer; no check state is fixed and no decision is made (03 R48, R49). The collision
comparison is made on the same samples (08 R140). -/
def State.endOwnBody (s : State) (x : Tx) (payload : List Byte) (check : BitVec 16) : State :=
  let y := x.afterBody payload check
  let bytes := wiredAnd (lineBytes x.payload.length payload) y.payloadOnLine
  let t := s.withFen { s.fen with tx := some y, staging := { s.fen.staging with payload := bytes } }
  (t.withRdc { t.rdc with stage := .judged }).rise t.clocks (y.drives (8 * y.bytes.length - 1))
    (levelOf (check.getLsbD 0))

/-- FRAME_CHECK_END (R51, R125), and the same cell of the own window (R48). -/
def execFrameCheckEnd (payload : List Byte) (check : BitVec 16) (s : State) : Host.Outcome State Fault Refusal :=
  s.whenDue (s.awaitsCheck.isSome || s.ownBody.isSome)
    (match s.awaitsCheck, s.ownBody with
     | some h, _ => s.endCheck h payload check
     | none, some x => s.endOwnBody x payload check
     | none, none => s)

/-! ## Answers and outcomes (07 R134 to R136; 02 R33) -/

/-- The answer cells of a window that the station judged, to the fall of cell B: it drives the cells its decision names
(08 R140). The rise of cell B is in the command that ends the window (log 43). -/
def State.driveAnswer (s : State) (d : Decision) : State :=
  let t := s.withFen { s.fen with answerA := d.drivesA, answerB := d.drivesB }
  (t.withRdc { t.rdc with stage := .answered }).fall t.clocks d.drivesB

/-- ANSWER_DRIVE (R134). -/
def execAnswerDrive (s : State) : Host.Outcome State Fault Refusal :=
  s.whenDue (s.isMember && s.rdc.stage == .judged && !s.ownWindow && s.fen.decision.isSome)
    (match s.fen.decision with
     | some d => s.driveAnswer d
     | none => s)

/-- The outcome of the own window: OSC settles the transmission, and the streak is counted (02 R33, 07 R131). -/
def State.endOwnWindow (s : State) (t : Transmission) (a b : Level) : State :=
  let u := s.readOwnPayload.settleWindow t s.ownCollided a b
  let u := u.withRdc { u.rdc with stage := .answered }
  (u.rise u.clocks false b).countStreak s.ownCollided

/-- The own window carries a frame whose outcome is due: sized, and started. -/
def State.outcomeDue (s : State) : Bool :=
  s.ownWindow && s.fen.tx.isSome && (s.rdc.stage == .body || s.rdc.stage == .judged) &&
  s.osc.slot.isSome && s.osc.slot != some .empty

/-- OUTCOME (R33, R136). -/
def execOutcome (a b : Level) (s : State) : Host.Outcome State Fault Refusal :=
  s.whenDue s.outcomeDue
    (match s.osc.slot with
     | some t => s.endOwnWindow t a b
     | none => s)

/-! ## The end of a window (06 R115) -/

/-- The window on the line is at its end as sized: after the answer cells; after the fill of a window in which this
station drives no answer; in the own window, once its transmission is settled; or after an EMPTY header. -/
def State.windowOver (s : State) : Bool :=
  s.readsLine && s.rdc.window.isSome &&
  (s.rdc.stage == .answered || s.endedEmpty ||
   (s.rdc.stage == .judged && !s.ownWindow &&
     match s.fen.decision with
     | some d => !d.drivesA && !d.drivesB
     | none => true) ||
   ((s.rdc.stage == .judged || s.rdc.stage == .body) && s.ownWindow && s.osc.slot.isNone))

/-- The window index advances; the next window's first header cell sets the staging buffer, or the CARRY cell is next
(06 R115, 03 R48). After an EMPTY header the mark of this cell may still undo it (07 R128). WDAT is released at the fall
where another owner's cell follows; where WINDOW_START or CARRY_DRIVE sets the drive at this same fall, the drive of the
window's last cell, which is answer cell B, stands until then, so that a station that drives both cells holds WDAT low
without a break. A drive of an earlier cell has ended at its next fall (08 R140; log 49). -/
def State.advanceWindow (s : State) : State :=
  let undo : Option Undo :=
    if s.endedEmpty then
      some { window := s.rdc.window, staging := s.fen.staging, tx := s.fen.tx, start := none }
    else none
  let next := (s.rdc.window.getD 0) + 1
  let held := s.lif.wdatDrive && s.fen.answerB
  let fen := { s.fen with
    tx := none, size := none, decision := none, answerA := false, answerB := false, undo := undo }
  match s.rdc.claimants[next]? with
  | some p =>
    ((s.withRdc { s.rdc with window := some next, stage := .header }).withFen
      { fen with staging := Staging.start p }).fall s.clocks (held && p == s.own)
  | none =>
    ((s.withRdc { s.rdc with window := none, stage := .carry }).withFen fen).fall s.clocks held

/-- WINDOW_END (R115). -/
def execWindowEnd (s : State) : Host.Outcome State Fault Refusal := s.whenDue s.windowOver s.advanceWindow

end Sys2Proof.Machine
end

