-- ==== Sys2Proof/Machine/Dispatch.lean ====
section
/-!
DEFINITION. One arm per row of spec/opcode_table.json.
-/

namespace Sys2Proof.Machine

def exec (i : Instr) (s : State) : Host.Outcome State Fault Refusal :=
  match i with
  | .take => Sys2Proof.Machine.execTake s
  | .popInbound => Sys2Proof.Machine.execPopInbound s
  | .popCompletion => Sys2Proof.Machine.execPopCompletion s
  | .post n => Sys2Proof.Machine.execPost n s
  | .release n => Sys2Proof.Machine.execRelease n s
  | .cancel n => Sys2Proof.Machine.execCancel n s
  | .doze => Sys2Proof.Machine.execDoze s
  | .resume => Sys2Proof.Machine.execResume s
  | .rejoin => Sys2Proof.Machine.execRejoin s
  | .softReset => Sys2Proof.Machine.execSoftReset s
  | .badCommand code => Sys2Proof.Machine.execBadCommand code s
  | .eventClear v => Sys2Proof.Machine.execEventClear v s
  | .registerWrite start v => Sys2Proof.Machine.execRegisterWrite start v s
  | .frameMemoryRead start => Sys2Proof.Machine.execFrameMemoryRead start s
  | .frameMemoryWrite start v => Sys2Proof.Machine.execFrameMemoryWrite start v s
  | .transactionEnd => Sys2Proof.Machine.execTransactionEnd s
  | .resetAssert => Sys2Proof.Machine.execResetAssert s
  | .resetRelease straps => Sys2Proof.Machine.execResetRelease straps s
  | .boundary => Sys2Proof.Machine.execBoundary s
  | .faultRecovery => Sys2Proof.Machine.execFaultRecovery s
  | .stuckLine wire => Sys2Proof.Machine.execStuckLine wire s
  | .roundStopped => Sys2Proof.Machine.execRoundStopped s
  | .openRound => Sys2Proof.Machine.execOpenRound s
  | .openComplete => Sys2Proof.Machine.execOpenComplete s
  | .openSeen => Sys2Proof.Machine.execOpenSeen s
  | .roundStart => Sys2Proof.Machine.execRoundStart s
  | .openAbandoned => Sys2Proof.Machine.execOpenAbandoned s
  | .strayClockFall => Sys2Proof.Machine.execStrayClockFall s
  | .sweepRunOut => Sys2Proof.Machine.execSweepRunOut s
  | .leadFieldEnd others => Sys2Proof.Machine.execLeadFieldEnd others s
  | .ownPresenceCellLow => Sys2Proof.Machine.execOwnPresenceCellLow s
  | .presenceFieldEnd others => Sys2Proof.Machine.execPresenceFieldEnd others s
  | .joinFieldEnd others => Sys2Proof.Machine.execJoinFieldEnd others s
  | .ownClaimCell others => Sys2Proof.Machine.execOwnClaimCell others s
  | .claimFieldEnd others => Sys2Proof.Machine.execClaimFieldEnd others s
  | .windowStart => Sys2Proof.Machine.execWindowStart s
  | .collision cell => Sys2Proof.Machine.execCollision cell s
  | .emptySettlement => Sys2Proof.Machine.execEmptySettlement s
  | .headerEnd bytes => Sys2Proof.Machine.execHeaderEnd bytes s
  | .markCell read => Sys2Proof.Machine.execMarkCell read s
  | .frameCheckEnd payload check => Sys2Proof.Machine.execFrameCheckEnd payload check s
  | .answerDrive => Sys2Proof.Machine.execAnswerDrive s
  | .outcome a b => Sys2Proof.Machine.execOutcome a b s
  | .carryDrive => Sys2Proof.Machine.execCarryDrive s
  | .chainedRoundStart => Sys2Proof.Machine.execChainedRoundStart s
  | .roundEnd => Sys2Proof.Machine.execRoundEnd s
  | .windowEnd => Sys2Proof.Machine.execWindowEnd s

end Sys2Proof.Machine
end

