-- ==== Sys2Proof/Safety.lean ====
section
/-!
DEFINITION. The laws of the whole machine that the manual's prose states, as predicates of a state: where frames are
held (01 R3), their order (02 R23), the pool counts (01 R6, R7), credit (04 R65), open sequences (02 R24), the peer
entries (05 R82, R83), a station out of the round (06 R101, R105), the wires, the ranges of the counts. Last, runs, and
the words in which statements speak of a command's data byte and of what a command leaves alone.
-/

namespace Sys2Proof.Machine

/-- The places of 01 Table 1-2. -/
inductive FramePlace where
  | freeList
  | fillingSet
  | urgentQueue
  | routineQueue
  | slot
  | completionQueue
  | inboundQueue
  | heldSet
deriving DecidableEq, Repr

/-- The place that a frame's record gives it (01 Table 1-2). -/
def FrameRecord.place (r : FrameRecord) : FramePlace :=
  match r with
  | .free => .freeList
  | .filling => .fillingSet
  | .queued q => match q.cls with
    | .urgent => .urgentQueue
    | .routine => .routineQueue
  | .sending _ _ => .slot
  | .done _ => .completionQueue
  | .arrived _ => .inboundQueue
  | .held _ => .heldSet

/-- Every frame is in exactly one place, the one its record gives (01 R3): each ordered place holds, without
duplicates, exactly the frames whose record says so. The FILLING and HELD sets are the records themselves. -/
def State.Placed (s : State) : Prop :=
  s.fpl.freeList.Nodup ∧ s.osc.urgent.Nodup ∧ s.osc.routine.Nodup ∧ s.osc.completion.Nodup ∧ s.ibu.inbound.Nodup ∧
  ∀ f : FrameNo,
    (f ∈ s.fpl.freeList ↔ (s.frame f).place = .freeList) ∧
    (f ∈ s.osc.urgent ↔ (s.frame f).place = .urgentQueue) ∧
    (f ∈ s.osc.routine ↔ (s.frame f).place = .routineQueue) ∧
    (s.osc.slot = some (.frame f) ↔ (s.frame f).place = .slot) ∧
    (f ∈ s.osc.completion ↔ (s.frame f).place = .completionQueue) ∧
    (f ∈ s.ibu.inbound ↔ (s.frame f).place = .inboundQueue)

/-- The record of a frame that is posted and not done (01 Table 1-1). -/
def FrameRecord.posted? (r : FrameRecord) : Option Posted :=
  match r with
  | .queued q | .sending q _ => some q
  | _ => none

/-- The frame that a mark in this cell would bring back from CANCELLED (07 R128), as it was. -/
def Fen.undoneFrame (e : Fen) : Option Posted :=
  match e.undo with
  | none => none
  | some u => match u.start with
    | some (.cancelled _ was _) => some was
    | _ => none

/-- Every frame is in its place, and each outbound queue is in post order (02 R23): posted frames have different post
numbers below the next one, and the numbers rise along each queue (log 9). -/
def State.QueuesInPostOrder (s : State) : Prop :=
  s.Placed ∧
  (∀ f q, (s.frame f).posted? = some q → q.postNo < s.osc.nextPost) ∧
  (∀ f g p q, f ≠ g → (s.frame f).posted? = some p → (s.frame g).posted? = some q → p.postNo ≠ q.postNo) ∧
  (s.osc.urgent.Pairwise fun f g => (s.frame f).postNo < (s.frame g).postNo) ∧
  (s.osc.routine.Pairwise fun f g => (s.frame f).postNo < (s.frame g).postNo) ∧
  ∀ was, s.fen.undoneFrame = some was →
    was.postNo < s.osc.nextPost ∧ ∀ f q, (s.frame f).posted? = some q → q.postNo ≠ was.postNo

/-- Outbound-owned never exceeds 32 (01 R7). -/
def State.OutboundBounded (s : State) : Prop := s.outboundOwned ≤ Config.outboundLimit

/-- Free count is never less than reserve (01 R6). -/
def State.ReserveCovered (s : State) : Prop := s.reserve ≤ s.freeCount

/-- The attempts that a record shows; 0 where the field is absent (01 Table 1-1). -/
def FrameRecord.attempts (r : FrameRecord) : Nat :=
  match r with
  | .queued q | .sending q _ => q.attempts
  | .done d => d.attempts
  | .free | .filling | .arrived _ | .held _ => 0

/-- A frame that may be sent again has at most 3 attempts, and none ever has more than 4 (01 R11); an open credit frame
has at most 3 (04 R77). -/
def State.AttemptsBounded (s : State) : Prop :=
  (∀ f, (s.frame f).attempts ≤ Config.maxAttempts) ∧
  (∀ f q, (s.frame f).posted? = some q → q.attempts < Config.maxAttempts) ∧
  (∀ p o, (s.peer p).openCredit = some o → o.attempts < Config.maxAttempts) ∧
  ∀ was, s.fen.undoneFrame = some was → was.attempts < Config.maxAttempts

/-- The conservation of credit for one peer (04 R65). -/
def State.ConservedAt (s : State) (p : Pos) : Prop :=
  let e := s.peer p
  e.held ≤ s.c0 ∧
  if e.present then e.granted + e.pending + e.owed + s.creditBearingOf p = s.c0
  else e.held = 0 ∧ e.granted = 0 ∧ e.pending = 0 ∧ e.owed = 0 ∧ s.creditBearingOf p = 0

/-- The frames to p that carry a sequence (02 R24). -/
def State.sequenceHolders (s : State) (p : Pos) : List FrameNo :=
  (List.finRange 48).filter (fun f => (s.frame f).holdsSeqTo p)

/-- At most one open sequence to p: one MESSAGE frame that carries a sequence, or the open credit frame (02 R24). -/
def State.OneOpenSequence (s : State) (p : Pos) : Prop :=
  (s.sequenceHolders p).length + (if (s.peer p).openCredit.isSome then 1 else 0) ≤ 1

/-- An entry's other fields are tied to its state (05 R82). -/
def PeerEntry.Tied (e : PeerEntry) : Prop :=
  if e.present then e.missed < Config.maxMissed
  else e = PeerEntry.lost 0 ∨ e = PeerEntry.lost Config.maxMissed

/-- The own position's entry is ABSENT and holds its reset values (05 R83). -/
def State.OwnEntryReset (s : State) : Prop := s.peer s.own = PeerEntry.atReset

/-- Frame memory has its canonical form and lists only addresses of frame memory (01 R1). -/
def State.MemoryOk (s : State) : Prop :=
  Memory.wf s.fpl.mem = true ∧ Memory.inRange s.fpl.mem = true

/-- In LISTENING, CONFLICT and FAULT the station drives nothing (06 R101) and keeps nothing of a round (06 R105, 03
R48). -/
def State.SilentOutOfRound (s : State) : Prop :=
  s.readsLine = false →
    s.lif.wclkDrive = false ∧ s.lif.wdatDrive = false ∧ s.lif.phase = .none ∧
    s.osc.slot = none ∧ s.fen.tx = none ∧ s.fen.staging.valid = false ∧ s.fen.decision = none ∧
    s.rdc.leadView = none ∧ s.rdc.chain = 0 ∧ s.rdc.claimants = [] ∧ s.rdc.window = none ∧
    s.rdc.sweep = .stopped ∧ s.rdc.streak = 0 ∧ s.rdc.joinPending = false ∧ s.rdc.rejoin = false

/-- The wires. A wire that the station pulls low reads low (00 section 5.1, wired-AND). Between rounds it pulls WCLK
never, and WDAT only in its own OPEN (08 R142, R143), and no mark can follow (07 R128); open seen is set only between
rounds (08 R144) and, as the model has it, not in its own OPEN (log 14) and not out of the round (log 25); a count above
0 counts what the wires now read (08 R142, R147). -/
def State.WiresConsistent (s : State) : Prop :=
  (s.lif.wclkDrive = true → s.lif.wclk = .low) ∧ (s.lif.wdatDrive = true → s.lif.wdat = .low) ∧
  (s.rdc.stage = .idle →
    s.lif.wclkDrive = false ∧ (s.lif.openCount = none → s.lif.wdatDrive = false) ∧ s.fen.undo = none) ∧
  (s.lif.openSeen = true → s.rdc.stage = .idle ∧ s.lif.openCount = none) ∧
  (s.readsLine = false → s.lif.wclkDrive = false ∧ s.lif.wdatDrive = false) ∧
  (0 < s.lif.clockLow → s.lif.wclk = .low) ∧ (0 < s.lif.dataLow → s.lif.wdat = .low ∧ s.lif.wclk = .high) ∧
  (0 < s.lif.idle → s.lif.wclk = .high ∧ s.lif.wdat = .high)

/-- While the doze flag is clear the WAKE latch is clear and the match counters are 0 (10 R165, R166). -/
def State.WakeRests (s : State) : Prop :=
  s.wku.doze = false → s.wku.wakeLatch = false ∧ ∀ n, (s.wakeEntry n).counter = 0

/-! ## Credit, step by step -/

/-- A MESSAGE to p that is QUEUED with a sequence, or in the slot, where it takes one at its window start. -/
def FrameRecord.inFlightTo (r : FrameRecord) (p : Pos) : Bool :=
  match r with
  | .queued q => q.peer == some p && q.openSeq.isSome
  | .sending q _ => q.peer == some p
  | _ => false

/-- The slot holds a new credit frame to p. -/
def State.slotCreditTo (s : State) (p : Pos) : Bool :=
  match s.osc.slot with
  | some (.newCredit r _) => r == p
  | _ => false

/-- The frames to p that hold an open sequence or take one in the slot. -/
def State.inFlight (s : State) (p : Pos) : Nat := (List.finRange 48).countP fun f => (s.frame f).inFlightTo p

/-- The open sequences to p, those that the slot's transmission will open among them (02 R24, 04 R75, R77). -/
def State.openSequences (s : State) (p : Pos) : Nat :=
  s.inFlight p + (if (s.peer p).openCredit.isSome then 1 else 0) + (if s.slotCreditTo p then 1 else 0)

/-- At most one sequence to p is open, p is then PRESENT, and its grant stands in pending (02 R24, 04 R67, R76, R77). -/
def State.SequenceCovered (s : State) (p : Pos) : Prop :=
  s.openSequences p ≤ 1 ∧ (s.openSequences p = 1 → (s.peer p).present = true) ∧
  (∀ f q o, (s.frame f).posted? = some q → q.peer = some p → q.openSeq = some o → o.grant ≤ (s.peer p).pending) ∧
  (∀ o, (s.peer p).openCredit = some o → o.grant ≤ (s.peer p).pending) ∧
  ∀ o, s.osc.slot = some (.newCredit p (some o)) → o.grant ≤ (s.peer p).pending

/-- The slot is occupied only at a MEMBER, from its CLAIM cell to the end of its own window (02 R30): the own window is
the one on the line or a later one, and settled ones leave the slot empty. -/
def State.SlotInItsRound (s : State) : Prop :=
  s.osc.slot ≠ none → s.rdc.participation = .member ∧
    (s.rdc.stage = .claimed ∨ ∃ i j, s.rdc.window = some i ∧ i ≤ j ∧ s.rdc.claimants[j]? = some s.own ∧
      (s.rdc.stage = .header ∨ s.rdc.stage = .mark ∨ s.rdc.stage = .body ∨ s.rdc.stage = .judged ∨
        (s.rdc.stage = .answered ∧ i < j)))

/-- The kept window-start acts (07 R128) are of the cell after an EMPTY header, and what they took still stands where
undoing them returns it: the frame's grant, the completed frame's sequence, the new credit frame's grant. -/
def State.UndoCovered (s : State) : Prop :=
  ∀ u, s.fen.undo = some u →
    (s.rdc.stage = .header ∨ s.rdc.stage = .carry ∨ s.rdc.stage = .carryCell) ∧
    (∃ i, u.window = some i ∧ (s.osc.slot ≠ none → s.rdc.window = some (i + 1))) ∧
    (∀ f p k c, u.start = some (.grantBuilt f p k c) →
      ∃ q d o, s.frame f = .sending q d ∧ q.peer = some p ∧ q.openSeq = some o ∧ o.grant = k) ∧
    (∀ f was c p, u.start = some (.cancelled f was c) → (∃ d, s.frame f = .done d) → s.osc.slot = some .empty →
      was.peer = some p →
      (s.peer p).present = true ∧ s.inFlight p = 0 ∧
      ((s.peer p).openCredit.map OpenCredit.grant =
        match was.openSeq with
        | some o => if 1 ≤ o.grant then some o.grant else none
        | none => none)) ∧
    ∀ p k c, u.start = some (.creditBuilt p k c) →
      (k = 0 ∧ s.osc.slot = some .empty ∧ (s.peer p).present = true ∧ s.openSequences p = 0) ∨
      ∃ o, s.osc.slot = some (.newCredit p (some o)) ∧ o.grant = k

/-- What makes credit conserved from step to step: the conservation itself (04 R65), the places of the frames (01 R3),
the entries (05 R82, R83), the reserve (01 R6), the open sequences (02 R24), the slot (02 R30), and the window-start
acts that a mark would undo (07 R128). -/
def State.CreditKept (s : State) : Prop :=
  s.Placed ∧ s.OwnEntryReset ∧ (∀ p, s.ConservedAt p ∧ (s.peer p).Tied ∧ s.SequenceCovered p) ∧ s.ReserveCovered ∧
  s.SlotInItsRound ∧ s.UndoCovered

/-- The sweep timer's count (06 Table 6-1). -/
def SweepTimer.count (t : SweepTimer) : Nat :=
  match t with
  | .stopped | .held => 0
  | .running n => n

/-- The ranges of the counts: 08 Table 8-1 and R143, 06 Table 6-1 (the streak is 0 again once it has reached 3, 06
R105), 09 R164, 10 Table 10-1, and of an entry missed (05 Table 5-1) and held (04 R65). Owed, pending and granted are in
range by the conservation of credit (`State.ConservedAt`). -/
def State.CountsInRange (s : State) : Prop :=
  s.lif.idle ≤ Config.settleGap ∧ s.lif.clockLow ≤ Config.clockStuckAbove + 1 ∧
  s.lif.dataLow ≤ Config.dataStuckAbove + 1 ∧ s.lif.cellTimer ≤ Config.cellTimerMax ∧
  (∀ c, s.lif.openCount = some c → c ≤ Config.openDuration) ∧
  s.rdc.chain ≤ Config.chainLimit ∧ s.rdc.streak < Config.maxStreak ∧
  s.rdc.sweep.count ≤ Config.sweepInterval ∧ s.lpt.further ≤ Config.furtherMax ∧
  (∀ n, (s.wakeEntry n).counter ≤ 15) ∧ (∀ p, (s.peer p).missed ≤ Config.maxMissed) ∧ ∀ p, (s.peer p).held ≤ s.c0

/-! ## Runs -/

/-- The state after one command, or after one cell-time with no command. -/
def State.feed (s : State) (c : Option Instr) : State :=
  match step { s with pending := c.toList } with
  | .next t => t
  | .fault _ | .refused _ => s

/-- The state after a run of commands and cell-times. -/
def State.feedAll (s : State) (cs : List (Option Instr)) : State := cs.foldl State.feed s

/-! ## The words of the statements -/

/-- A transaction of a direction, before its data byte at `a`, with nothing captured and nothing reported (09 R150). -/
def ActiveTxn.begun (read : Bool) (a : Addr) : ActiveTxn :=
  { read := read, addr := a, statusCapture := none, peerCaptures := [], refusedReported := false }

/-- The transaction whose next data byte a byte command takes: one begun at `start`, or the one in progress in that
direction (09 R150; log 10). -/
def State.txnFor (s : State) (read : Bool) (start : Option Addr) : Option ActiveTxn :=
  match start with
  | some a => some (ActiveTxn.begun read a)
  | none => match s.lpt.txn with
    | .active t => if t.read = read then some t else none
    | .idle | .blocked => none

/-- The Local Port after the first data byte of a transaction that began at `a`, with `sdo` standing on SDO; nothing
else of it changed. -/
def State.lptBegun (s : State) (read : Bool) (a : Addr) (sdo : Byte) : Lpt :=
  { s.lpt with txn := .active (ActiveTxn.begun read (a + 1)), sdo := some sdo }

/-- The Local Port with a misuse reported (09 R164), nothing else of it changed. -/
def Lpt.misused (l : Lpt) (kind : MisuseKind) (frame : Option FrameNo) : Lpt :=
  { l with
    misuse := some (l.misuse.getD { kind := kind, frame := frame })
    further := if l.misuse = none then 0 else min 255 (l.further + 1)
    latched := { l.latched with misuse := true } }

/-- The station has left the round: what 06 R105 says of the Line Interface, the Frame Engine and the Round Controller,
with open seen cleared and the own OPEN ended, which R105 does not name (log 25). -/
def State.OutOfRound (t : State) (entered : Participation) : Prop :=
  t.rdc.participation = entered ∧
  t.lif.wclkDrive = false ∧ t.lif.wdatDrive = false ∧ t.lif.phase = .none ∧
  t.lif.openSeen = false ∧ t.lif.openCount = none ∧
  t.osc.slot = none ∧ t.fen.tx = none ∧ t.fen.staging.valid = false ∧ t.fen.decision = none ∧
  t.fen.answerA = false ∧ t.fen.answerB = false ∧
  t.rdc.joinPending = false ∧ t.rdc.rejoin = false ∧ t.rdc.leadView = none ∧ t.rdc.claimants = [] ∧
  t.rdc.window = none ∧ t.rdc.chain = 0 ∧ t.rdc.sweep = .stopped ∧ t.rdc.streak = 0 ∧ t.rdc.stage = .idle

/-- The traffic side that no line command reaches but by its own effect: frame memory, the free list, the inbound
queue, the straps, the port's transaction and registers, the wake entries' settings. -/
def State.SameElsewhere (s t : State) : Prop :=
  t.resetAsserted = s.resetAsserted ∧ t.lif.straps = s.lif.straps ∧ t.fpl.mem = s.fpl.mem ∧
  t.fpl.memEpoch = s.fpl.memEpoch ∧ t.fpl.freeList = s.fpl.freeList ∧ t.ibu = s.ibu ∧ t.lpt.txn = s.lpt.txn ∧
  t.lpt.sdo = s.lpt.sdo ∧ t.lpt.takeLatch = s.lpt.takeLatch ∧ t.lpt.inboundLatch = s.lpt.inboundLatch ∧
  t.lpt.completionLatch = s.lpt.completionLatch ∧ t.lpt.enable = s.lpt.enable ∧ t.lpt.misuse = s.lpt.misuse ∧
  t.lpt.further = s.lpt.further ∧ t.lpt.latched.misuse = s.lpt.latched.misuse ∧ t.wku = s.wku ∧
  t.pending = s.pending

/-- The traffic side, whole: entries, frames, queues, the port and the Wake Unit. -/
def State.SameTraffic (s t : State) : Prop :=
  t.resetAsserted = s.resetAsserted ∧ t.peers = s.peers ∧ t.fpl = s.fpl ∧ t.osc = s.osc ∧ t.ibu = s.ibu ∧
  t.lpt = s.lpt ∧ t.wku = s.wku ∧ t.pending = s.pending

/-- What the first LEAD cell finds of a state whose join pending is given, and what it leaves (06 R104, R109, R118; 08
R143, R144, R146). The flag that tells a rejoin from a first join (05 R94) is set and cleared as the pending join is
taken (log 39), and the sweep timer is held in JOINING too (log 47). -/
def State.RoundStarted (s t : State) (joinPending opener : Bool) (chain : Nat) : Prop :=
  let joins := (s.rdc.participation = .observing ∧ joinPending = true) ∨
    (s.rdc.participation = .member ∧ s.rdc.rejoin = true)
  (joins → t.rdc.participation = .joining ∧
    (s.rdc.participation = .observing → t.rdc.joinPending = false ∧ t.rdc.rejoin = s.rdc.rejoin ∧
      t.rdc.joinFromMember = false) ∧
    (s.rdc.participation = .member → t.rdc.rejoin = false ∧ t.rdc.joinPending = joinPending ∧
      t.rdc.joinFromMember = true)) ∧
  (¬ joins → t.rdc.participation = s.rdc.participation ∧ t.rdc.rejoin = s.rdc.rejoin ∧
    t.rdc.joinPending = joinPending ∧ t.rdc.joinFromMember = s.rdc.joinFromMember) ∧
  t.rdc.chain = chain ∧ t.rdc.claimants = [] ∧ t.rdc.window = none ∧ t.rdc.presence = 0xFFFF ∧
  t.rdc.sweep = .held ∧ t.rdc.stage = .lead ∧ t.rdc.leadView = s.rdc.leadView ∧ t.rdc.streak = s.rdc.streak ∧
  t.lif.wclk = .low ∧ t.lif.openSeen = false ∧ t.lif.openCount = none ∧ t.lif.idle = 0 ∧
  (t.lif.wclkDrive = true ↔ opener = true ∨ t.rdc.participation = .joining ∨ t.rdc.participation = .member) ∧
  (t.lif.wdatDrive = true ↔ (t.rdc.participation = .joining ∨ t.rdc.participation = .member) ∧
    ∃ p, s.rdc.leadView = some p ∧ p.val < 8) ∧
  s.SameTraffic t

/-- The settlement of a cancelled frame's open sequence in the entries (02 R41): with a grant it becomes the peer's open
credit frame, without one the send sequence advances. -/
def State.peersAfterCancel (s : State) (q : Posted) (attempts : Nat) : Vector PeerEntry 16 :=
  match q.peer, q.openSeq with
  | some p, some o =>
    if 1 ≤ o.grant then
      s.peers.set p { s.peer p with openCredit := some { seq := o.seq, grant := o.grant, attempts := attempts } }
    else s.peers.set p { s.peer p with sendSeq := (s.peer p).sendSeq + 1 }
  | _, _ => s.peers

/-- The station stands in its own window, whose transmission has started and not collided, or has collided, as `x`
tells. -/
def State.InOwnWindow (s : State) (x : Tx) : Prop :=
  s.resetAsserted = false ∧ s.ownWindow = true ∧ s.fen.tx = some x

/-- The station stands at the last cell of a header that reads GOOD with fields `h`, of another source than the owner of
the window (07 R132): in another owner's window, or in its own after a collision. -/
def State.AtForeignHeader (s : State) (bytes : List Byte) (h : HeaderFields) : Prop :=
  s.resetAsserted = false ∧ s.readsLine = true ∧ s.rdc.stage = .header ∧
  (∃ owner, s.windowOwner = some owner ∧ h.source ≠ owner) ∧ (s.ownWindow = false ∨ s.ownCollided = true) ∧
  legalFields h = true ∧ s.headerRead bytes = encodeHeader h

/-- The station stands at the frame check of another station's window with a GOOD header `h` from its owner. -/
def State.AtFrameCheck (s : State) (h : HeaderFields) : Prop :=
  s.resetAsserted = false ∧ s.readsLine = true ∧ s.ownWindow = false ∧ s.rdc.stage = .body ∧
  s.fen.staging.fields = some h

/-- The frame check computed over the header read and the payload bytes agrees with the one read (07 R125). -/
def State.checkPasses (s : State) (h : HeaderFields) (payload : List Byte) (check : BitVec 16) : Prop :=
  crc16 (s.fen.staging.header ++ (List.range h.length).map (fun i => payload.getD i 0xFF)) = check

/-- The inbound descriptor byte i of a stored frame (11 Table 11-3, 03 Table 3-3). -/
def HeaderFields.descriptorByte (h : HeaderFields) (i : Nat) : Byte :=
  match i with
  | 0 => BitVec.ofNat 8 h.source.val
  | 1 => (if h.kind = .notice then 0x80 else 0) ||| (if h.cls = .urgent then 0x40 else 0)
  | 2 => BitVec.ofNat 8 h.length
  | 3 => (h.tag >>> 8).setWidth 8
  | 4 => h.tag.setWidth 8
  | _ => 0

/-- What accept leaves in the pool, the inbound queue and frame memory for a frame with header `h` (01 R15, 03 R58):
the free-list head `g` is ARRIVED at the queue's tail, and holds descriptor, payload and zeros; every other frame and
byte is as before. -/
def State.Stored (s t : State) (g : FrameNo) (h : HeaderFields) (payload : List Byte) : Prop :=
  s.fpl.freeList = g :: t.fpl.freeList ∧ t.ibu.inbound = s.ibu.inbound ++ [g] ∧
  t.fpl.frames = s.fpl.frames.set g (.arrived
    { cls := h.cls, peer := if h.kind = .notice then none else some h.source, creditBearing := h.kind != .notice }) ∧
  (∀ i, i < 8 → t.memByte (64 * g.val + i) = h.descriptorByte i) ∧
  (∀ i, i < 56 → t.memByte (64 * g.val + 8 + i) = if i < h.length then payload.getD i 0xFF else 0) ∧
  ∀ a, a < 64 * g.val ∨ 64 * g.val + 64 ≤ a → t.memByte a = s.memByte a

end Sys2Proof.Machine
end

