-- ==== Sys2Proof/WellFormed.lean ====
section
/-!
DEFINITION. Which operands a command of each row has. The machine gives every command an outcome, well-formed
or not; these are the operands for which the command is its row of the table.
-/

namespace Sys2Proof

/-- A command code that names a command (11 Table 11-9). -/
def isCommandCode (code : Byte) : Bool :=
  code == 0x11 || code == 0x12 || code == 0x21 || code == 0x5A

/-- A register that a write stores to: EVENT_ENABLE, the wake settings, the wake tag table (09 R152,
11 Table 11-4). -/
def isStoredRegister (a : Addr) : Bool :=
  a == 0xC19 || (0xC30 ≤ a.toNat && a.toNat ≤ 0xC35) || (0xC80 ≤ a.toNat && a.toNat ≤ 0xC8B)

/-- The base address of a port that acts on a read (09 R153): a read transaction that begins there is the row
TAKE, POP_INBOUND or POP_COMPLETION. -/
def isActingReadPort (a : Addr) : Bool :=
  a == 0xC01 || a == 0xC03 || a == 0xC05

/-- The operands of the rows. A code that names a command is not BAD_COMMAND; a register write that begins a
transaction begins at a register, a frame memory write in frame memory, a read not at a port that acts; a header
has at most 7 bytes, a payload at most 56; a claimant compares no cell after its last frame-check cell, 519. -/
def Instr.wellFormed : Instr → Bool
  | .badCommand code => !isCommandCode code
  | .registerWrite (some a) _ => isStoredRegister a
  | .frameMemoryRead (some a) => !isActingReadPort a
  | .frameMemoryWrite (some a) _ => a.toNat < 0xC00
  | .collision cell => cell < 520
  | .headerEnd bytes => bytes.length ≤ 7
  | .frameCheckEnd payload _ => payload.length ≤ 56
  | .take | .popInbound | .popCompletion | .post _ | .release _ | .cancel _
  | .doze | .resume | .rejoin | .softReset | .eventClear _
  | .registerWrite none _ | .frameMemoryRead none | .frameMemoryWrite none _
  | .transactionEnd | .resetAssert | .resetRelease _
  | .boundary | .faultRecovery | .stuckLine _ | .roundStopped | .openRound | .openComplete
  | .openSeen | .roundStart | .openAbandoned | .strayClockFall | .sweepRunOut
  | .leadFieldEnd _ | .ownPresenceCellLow | .presenceFieldEnd _ | .joinFieldEnd _
  | .ownClaimCell _ | .claimFieldEnd _ | .windowStart | .emptySettlement | .markCell _
  | .answerDrive | .outcome _ _ | .carryDrive | .chainedRoundStart | .roundEnd | .windowEnd => true

end Sys2Proof
end

