-- ==== Sys2Proof/Certificates/Slice0/Obligations.lean ====
section
/-!
DEFINITION. The statements for the provers. A statement that ends in `exec c s = .next t` says where its command
completes; every statement holds for every state that meets its hypotheses, and Tests/Slice0.lean shows such states.
-/

open Sys2Proof Sys2Proof.Machine

/-! ## The machine -/

/-- A step takes the command at the front of the queue and runs it on the state with the queue's rest. -/
def Obligations.StepRunsTheFrontCommand : Prop :=
  ∀ (s : State) (c : Instr) (rest : List Instr), s.pending = c :: rest →
    step s = exec c { s with pending := rest }

/-- No command stops the machine, and none touches the queue of those that wait. On an empty queue one cell-time passes
(the model's choice, log 3); nothing passes while RESET is asserted, or while the station makes the cell clock. -/
def Obligations.EveryStepAnswersNext : Prop :=
  (∀ (c : Instr) (s : State), ∃ t, exec c s = .next t ∧ t.pending = s.pending) ∧
  ∀ s : State, s.pending = [] →
    step s = .next s.tick ∧ ((s.resetAsserted = true ∨ s.lif.phase ≠ .none) → step s = .next s)


/-- 08 R137, 09 R151: while RESET is asserted no command reaches the station, but for the release of RESET; the release
of CS is noted (log 23). At any time TRANSACTION_END ends the transaction and releases SDO (09 R150), and changes
nothing else. -/
def Obligations.ResetHoldsOffCommands : Prop :=
  (∀ (c : Instr) (s : State), s.resetAsserted = true → c ≠ .transactionEnd → (∀ x, c ≠ .resetRelease x) →
    exec c s = .next s) ∧
  ∀ s : State, exec .transactionEnd s = .next { s with lpt := { s.lpt with txn := .idle, sdo := none } }

/-! ## Resets -/

/-- What a reset leaves: 01 R20, 02 R47, 03 R63, 05 Table 5-1, 06 R100, 09 Table 9-2, 10 Table 10-1, 08 R137. -/
def Obligations.ResetLeavesTheTables : Prop :=
  ∀ (straps : Straps) (mem : List Host.Cell) (e : Nat) (x : Txn) (sdo : Option Byte) (queue : List Instr),
    let t := State.afterReset straps mem e x sdo queue
    t.lif.wclkDrive = false ∧ t.lif.wdatDrive = false ∧ t.lif.phase = .none ∧ t.lif.openSeen = false ∧
    t.lif.idle = 0 ∧ t.lif.clockLow = 0 ∧ t.lif.dataLow = 0 ∧ lineStuck t.lif = false ∧ t.lif.straps = straps ∧
    t.rdc.participation = .listening ∧ t.rdc.leadView = none ∧ t.rdc.chain = 0 ∧ t.rdc.claimants = [] ∧
    t.rdc.window = none ∧ t.rdc.presence = 0xFFFF ∧ t.rdc.sweep = .stopped ∧ t.rdc.streak = 0 ∧
    t.rdc.joinPending = false ∧ t.rdc.rejoin = false ∧
    t.fen.tx = none ∧ t.fen.staging.valid = false ∧
    (∀ p, (t.peer p).present = false ∧ (t.peer p).missed = 0 ∧ (t.peer p).held = 0 ∧ (t.peer p).owed = 0 ∧
      (t.peer p).pending = 0 ∧ (t.peer p).granted = 0 ∧ (t.peer p).sendSeq = 0 ∧ (t.peer p).lastAccepted = none ∧
      (t.peer p).openCredit = none) ∧
    (∀ f, t.frame f = .free) ∧ t.fpl.freeList = List.finRange 48 ∧ t.freeCount = 48 ∧ t.spare = 48 ∧
    t.reserve = 0 ∧ t.outboundOwned = 0 ∧ t.fillingSet = [] ∧ t.heldSet = [] ∧ t.fpl.mem = mem ∧
    t.osc.urgent = [] ∧ t.osc.routine = [] ∧ t.osc.slot = none ∧ t.osc.completion = [] ∧ t.osc.creditLast = false ∧
    t.hasTransmission = false ∧ t.ibu.inbound = [] ∧
    t.lpt.takeLatch = 0xFF ∧ t.lpt.inboundLatch = 0xFF ∧
    t.lpt.completionLatch = { frame := 0xFF, outcome := 0, attempts := 0, tagHigh := 0, tagLow := 0 } ∧
    t.eventRaw = 0x20 ∧ t.lpt.enable = 0 ∧ t.eventStatus = 0 ∧ t.irq = false ∧ t.lpt.misuse = none ∧
    t.lpt.further = 0 ∧
    t.wku.doze = false ∧ t.wku.wakeLatch = false ∧ t.wake = false ∧
    ∀ n, (t.wakeEntry n).settings0 = 0 ∧ (t.wakeEntry n).settings1 = 0 ∧ (t.wakeEntry n).tagValue = 0 ∧
      (t.wakeEntry n).tagMask = 0 ∧ (t.wakeEntry n).counter = 0

/-- 09 R159: SOFT_RESET leaves every block reset, keeps the sampled straps and frame memory, and its own transaction
takes no further byte. A wire that the station pulled low reads HIGH (log 6). -/
def Obligations.SoftResetResetsEveryBlock : Prop :=
  ∀ s : State, s.resetAsserted = false → ∃ t, exec .softReset s = .next t ∧
    t.lif.wclk = (if s.lif.wclkDrive then .high else s.lif.wclk) ∧
    t.lif.wdat = (if s.lif.wdatDrive then .high else s.lif.wdat) ∧
    t = { State.afterReset s.lif.straps s.fpl.mem s.fpl.memEpoch .blocked (some 0) s.pending with
          lif := { Lif.atReset s.lif.straps with wclk := t.lif.wclk, wdat := t.lif.wdat } }

/-- 08 R137, 09 R151, 06 R100: the assertion of RESET releases both wires, holds the counts at 0, abandons the
transaction and holds IRQ and WAKE inactive; its release samples the straps and leaves every block reset, with CS
waited for where it was asserted. The model's choices here: the other blocks take their values at the release (log 22); a
release with RESET not asserted performs it too (log 23); both wires then read HIGH (log 6), and frame memory lists
nothing, its undefined bytes those of the next reset number (logs 7, 8). -/
def Obligations.PinResetEdges : Prop :=
  (∀ s : State, s.resetAsserted = false → ∃ t, exec .resetAssert s = .next t ∧
    t.resetAsserted = true ∧ t.lif.wclkDrive = false ∧ t.lif.wdatDrive = false ∧ t.lif.phase = .none ∧
    t.lif.openSeen = false ∧ t.lif.openCount = none ∧ t.lif.cellTimer = 0 ∧ t.lif.idle = 0 ∧ t.lif.clockLow = 0 ∧
    t.lif.dataLow = 0 ∧ t.irq = false ∧ t.wake = false ∧
    t = { s with resetAsserted := true, lif := { t.lif with straps := s.lif.straps }
                 lpt := { s.lpt with txn := if s.lpt.txn = .idle then .idle else .blocked, sdo := none } }) ∧
  ∀ (s : State) (straps : Straps), exec (.resetRelease straps) s =
    .next (State.afterReset straps [] (s.fpl.memEpoch + 1) (if s.lpt.txn = .idle then .idle else .blocked) none
      s.pending)

/-! ## The local port -/

/-- 01 R8, 09 R154. -/
def Obligations.TakeByItsTest : Prop :=
  ∀ s : State, s.resetAsserted = false →
    (s.takeReady = true ↔ 1 ≤ s.spare ∧ s.outboundOwned < 32) ∧
    (s.takeReady = true → ∃ f rest, s.fpl.freeList = f :: rest ∧
      exec .take s = .next { s with
        fpl := { s.fpl with frames := s.fpl.frames.set f .filling, freeList := rest }
        lpt := { s.lptBegun true 0xC01 (BitVec.ofNat 8 f.val) with takeLatch := BitVec.ofNat 8 f.val } }) ∧
    (s.takeReady = false →
      exec .take s = .next { s with lpt := { s.lptBegun true 0xC01 0xFF with takeLatch := 0xFF } })

/-- 01 R16, 09 R154. -/
def Obligations.PopInboundMovesTheHead : Prop :=
  ∀ s : State, s.resetAsserted = false →
    (∀ f rest r, s.ibu.inbound = f :: rest → s.frame f = .arrived r →
      exec .popInbound s = .next { s with
        fpl := { s.fpl with frames := s.fpl.frames.set f (.held r) }
        ibu := { s.ibu with inbound := rest }
        lpt := { s.lptBegun true 0xC03 (BitVec.ofNat 8 f.val) with inboundLatch := BitVec.ofNat 8 f.val } }) ∧
    (s.ibu.inbound = [] →
      exec .popInbound s = .next { s with lpt := { s.lptBegun true 0xC03 0xFF with inboundLatch := 0xFF } })

/-- 01 R14, 09 R155, 11 Table 11-5. That a frame whose cancellation a mark could have undone is forgotten with it is the
model's choice (log 17). -/
def Obligations.PopCompletionLatchesTheRecord : Prop :=
  ∀ s : State, s.resetAsserted = false →
    (∀ f rest d, s.osc.completion = f :: rest → s.frame f = .done d →
      exec .popCompletion s = .next { s with
        fpl := { s.fpl with frames := s.fpl.frames.set f .free, freeList := s.fpl.freeList ++ [f] }
        osc := { s.osc with completion := rest }
        fen := (s.forgetUndo f).fen
        lpt := { s.lptBegun true 0xC05 (BitVec.ofNat 8 f.val) with
          completionLatch := { frame := BitVec.ofNat 8 f.val, outcome := outcomeCode d.outcome
                               attempts := BitVec.ofNat 8 d.attempts
                               tagHigh := (d.tag >>> 8).setWidth 8, tagLow := d.tag.setWidth 8 } } }) ∧
    (s.osc.completion = [] →
      exec .popCompletion s = .next { s with lpt := { s.lptBegun true 0xC05 0xFF with
        completionLatch := { frame := 0xFF, outcome := 0, attempts := 0, tagHigh := 0, tagLow := 0 } } })

/-- 01 R10, 02 R21, R22, 11 Table 11-3: a FILLING frame is judged by the eight descriptor bytes as they stand in frame
memory. -/
def Obligations.PostByTheDescriptor : Prop :=
  ∀ (s : State) (f : FrameNo), s.resetAsserted = false → s.frame f = .filling →
    let b := fun i => s.frameByte f i
    let notice := (b 1).getLsbD 7
    let cls : FrameClass := if (b 1).getLsbD 6 then .urgent else .routine
    let tag : Tag := b 3 ++ b 4
    let peer : Option Pos := if !notice && decide ((b 0).toNat < 16) then some (Fin.ofNat 16 (b 0).toNat) else none
    let wellFormed := (b 2).toNat ≤ 56 ∧ b 1 &&& 0x3F = 0 ∧ b 5 = 0 ∧ b 6 = 0 ∧ b 7 = 0 ∧
      (notice = true ∨ ((b 0).toNat ≤ 15 ∧ (b 0).toNat ≠ s.own.val))
    let absent := s.rdc.participation = .member ∧ ∃ p, peer = some p ∧ (s.peer p).present = false
    let done := fun outcome => Host.Outcome.next (φ := Fault) (ρ := Refusal) { s with
      fpl := { s.fpl with frames := s.fpl.frames.set f (.done
        { cls := cls, notice := notice, peer := peer, tag := tag, attempts := 0, outcome := outcome }) }
      osc := { s.osc with completion := s.osc.completion ++ [f] }
      lpt := s.lptBegun false 0xC10 0 }
    (¬ wellFormed → exec (.post (BitVec.ofNat 8 f.val)) s = done .malformed) ∧
    (wellFormed → absent → exec (.post (BitVec.ofNat 8 f.val)) s = done .peerAbsent) ∧
    (wellFormed → ¬ absent → exec (.post (BitVec.ofNat 8 f.val)) s = .next { s with
      fpl := { s.fpl with frames := s.fpl.frames.set f (.queued
        { cls := cls, peer := peer, length := (b 2).toNat, tag := tag, attempts := 0, openSeq := none
          postNo := s.osc.nextPost }) }
      osc := { s.osc with
        urgent := if cls = .urgent then s.osc.urgent ++ [f] else s.osc.urgent
        routine := if cls = .routine then s.osc.routine ++ [f] else s.osc.routine
        nextPost := s.osc.nextPost + 1 }
      lpt := s.lptBegun false 0xC10 0 })

/-- 01 R17: the frame is freed, and a credit-bearing one returns its credit to owed of its source. -/
def Obligations.ReleaseFreesAHeldFrame : Prop :=
  ∀ (s : State) (f : FrameNo) (r : InRecord), s.resetAsserted = false → s.frame f = .held r →
    (∀ p, r.creditBearing = true → r.peer = some p → p ≠ s.own) →
    exec (.release (BitVec.ofNat 8 f.val)) s = .next { s with
      fpl := { s.fpl with frames := s.fpl.frames.set f .free, freeList := s.fpl.freeList ++ [f] }
      peers := match r.creditBearing, r.peer with
        | true, some p => s.peers.set p { s.peer p with owed := (s.peer p).owed + 1 }
        | _, _ => s.peers
      lpt := s.lptBegun false 0xC11 0 }

/-- 01 R12, 02 R41: a QUEUED frame completes CANCELLED with its attempts, its open sequence passing to the open credit
frame or closing; a SENDING frame takes the cancel request. -/
def Obligations.CancelByFrameState : Prop :=
  ∀ (s : State) (f : FrameNo), s.resetAsserted = false →
    (∀ q, s.frame f = .queued q → (∀ p, q.peer = some p → p ≠ s.own) →
      exec (.cancel (BitVec.ofNat 8 f.val)) s = .next { s with
        fpl := { s.fpl with frames := s.fpl.frames.set f (.done
          { cls := q.cls, notice := q.peer.isNone, peer := q.peer, tag := q.tag, attempts := q.attempts
            outcome := .cancelled }) }
        osc := { s.osc with
          urgent := s.osc.urgent.filter (fun g => g ≠ f), routine := s.osc.routine.filter (fun g => g ≠ f)
          completion := s.osc.completion ++ [f] }
        peers := match q.peer, q.openSeq with
          | some p, some o =>
            if 1 ≤ o.grant then
              s.peers.set p { s.peer p with openCredit := some { seq := o.seq, grant := o.grant, attempts := q.attempts } }
            else s.peers.set p { s.peer p with sendSeq := (s.peer p).sendSeq + 1 }
          | _, _ => s.peers
        lpt := s.lptBegun false 0xC12 0 }) ∧
    ∀ q c, s.frame f = .sending q c →
      exec (.cancel (BitVec.ofNat 8 f.val)) s = .next { s with
        fpl := { s.fpl with frames := s.fpl.frames.set f (.sending q true) }
        lpt := s.lptBegun false 0xC12 0 }

/-- 09 R156, R157, R164: a request that is refused changes nothing but the misuse record, with the frame number written
where it lies in 0-47, and so does a command code that names no command. -/
def Obligations.RefusedRequestsAreMisuses : Prop :=
  ∀ (s : State) (n : Byte), s.resetAsserted = false →
    let named : Option FrameNo := if h : n.toNat < 48 then some ⟨n.toNat, h⟩ else none
    ((∀ f, named = some f → s.frame f ≠ .filling) →
      exec (.post n) s = .next { s with lpt := (s.lptBegun false 0xC10 0).misused .postNotFilling named }) ∧
    ((∀ f r, named = some f → s.frame f ≠ .held r) →
      exec (.release n) s = .next { s with lpt := (s.lptBegun false 0xC11 0).misused .releaseNotHeld named }) ∧
    ((∀ f q c, named = some f → s.frame f ≠ .queued q ∧ s.frame f ≠ .sending q c) →
      exec (.cancel n) s = .next { s with lpt := (s.lptBegun false 0xC12 0).misused .cancelNotOutbound named }) ∧
    (n ≠ 0x11 → n ≠ 0x12 → n ≠ 0x21 → n ≠ 0x5A →
      exec (.badCommand n) s = .next { s with lpt := (s.lptBegun false 0xC13 0).misused .badCommand none })

/-- 10 R165, R166, and of IRQ 09 R163. -/
def Obligations.DozeAndResume : Prop :=
  ∀ s : State, s.resetAsserted = false →
    (s.wku.doze = false → ∃ t, exec .doze s = .next t ∧ t.wku.doze = true ∧ t.irq = false ∧
      (∀ n, t.wakeEntry n = { s.wakeEntry n with counter := 0 }) ∧ t.wku.wakeLatch = s.wku.wakeLatch ∧
      t = { s with wku := t.wku, lpt := s.lptBegun false 0xC13 0 }) ∧
    (s.wku.doze = true → exec .doze s = .next { s with lpt := s.lptBegun false 0xC13 0 }) ∧
    ∃ t, exec .resume s = .next t ∧ t.wku.doze = false ∧ t.wku.wakeLatch = false ∧ t.wake = false ∧
      (∀ n, t.wakeEntry n = { s.wakeEntry n with counter := 0 }) ∧ (t.irq = true ↔ s.eventStatus ≠ 0) ∧
      t = { s with wku := t.wku, lpt := s.lptBegun false 0xC13 0 } ∧
      (s.WakeRests → s.wku.doze = false → t.wku = s.wku)

/-- 09 R158, 06 R106: from CONFLICT the station, which holds nothing of a round there, enters LISTENING and latches
nothing, or goes on into FAULT where the line is stuck. -/
def Obligations.RejoinByParticipation : Prop :=
  ∀ s : State, s.resetAsserted = false →
    (s.rdc.participation = .member →
      exec .rejoin s = .next { s with rdc := { s.rdc with rejoin := true }, lpt := s.lptBegun false 0xC13 0 }) ∧
    (s.rdc.participation = .conflict → s.SilentOutOfRound → lineStuck s.lif = false →
      ∃ t, exec .rejoin s = .next t ∧ t.OutOfRound .listening ∧ t.lif.idle = 0 ∧
        t = { s with rdc := t.rdc, lif := t.lif, fen := t.fen, lpt := s.lptBegun false 0xC13 0 }) ∧
    (s.rdc.participation = .conflict → s.SilentOutOfRound → s.WiresConsistent → lineStuck s.lif = true →
      ∃ t, exec .rejoin s = .next t ∧ t.OutOfRound .fault ∧ t.lif.idle = 0 ∧ t.lpt.latched.line = true ∧
        t.peers = s.peers ∧ t.fpl = s.fpl ∧ t.osc = s.osc ∧ t.ibu = s.ibu) ∧
    (s.rdc.participation ≠ .member → s.rdc.participation ≠ .conflict →
      exec .rejoin s = .next { s with lpt := s.lptBegun false 0xC13 0 })

/-- 09 R161 to R163, Table 9-5, 11 Table 11-8, 02 R46, 03 R60: the raw flags, the status flags and IRQ in every state,
and EVENT_CLEAR, which clears the latched events it names and with MISUSE the misuse record (09 R164). -/
def Obligations.EventsIrqAndEventClear : Prop :=
  ∀ s : State,
    (s.eventRaw.getLsbD 7 = true ↔ s.ibu.inbound ≠ []) ∧ (s.eventRaw.getLsbD 6 = true ↔ s.osc.completion ≠ []) ∧
    (s.eventRaw.getLsbD 5 = true ↔ 1 ≤ s.spare ∧ s.outboundOwned < 32) ∧
    s.eventRaw.getLsbD 4 = s.lpt.latched.peer ∧ s.eventRaw.getLsbD 3 = s.lpt.latched.joined ∧
    s.eventRaw.getLsbD 2 = s.lpt.latched.line ∧ s.eventRaw.getLsbD 1 = s.lpt.latched.excess ∧
    s.eventRaw.getLsbD 0 = s.lpt.latched.misuse ∧
    s.eventStatus = s.eventRaw &&& s.lpt.enable ∧
    (s.irq = true ↔ s.eventStatus ≠ 0 ∧ s.wku.doze = false ∧ s.resetAsserted = false) ∧
    ∀ v : Byte, s.resetAsserted = false → ∃ t, exec (.eventClear v) s = .next t ∧
      t.eventRaw = s.eventRaw &&& ~~~(v &&& 0x1F) ∧
      t = { s with lpt := { s.lptBegun false 0xC18 0 with
        latched := t.lpt.latched
        misuse := if v.getLsbD 0 then none else s.lpt.misuse
        further := if v.getLsbD 0 then 0 else s.lpt.further } }

/-- 09 R152, R162, 10 R167, 11 Tables 11-4, 11-10, R171: a byte written to EVENT_ENABLE, to a wake settings byte or to
a wake tag byte is stored, whether first or later in its transaction; bits 7-5 of settings byte 1 are stored as 0; a
match counter never changes. -/
def Obligations.RegisterWriteStores : Prop :=
  ∀ (s : State) (start : Option Addr) (v : Byte) (x : ActiveTxn), s.resetAsserted = false →
    s.txnFor false start = some x →
    let port : Lpt := { s.lpt with txn := .active { x with addr := x.addr + 1 }
                                   sdo := if start.isSome then some 0 else s.lpt.sdo }
    (x.addr = 0xC19 → exec (.registerWrite start v) s = .next { s with lpt := { port with enable := v } }) ∧
    ∀ n : Fin 3,
      let e := s.wakeEntry n
      let stores := fun (e' : WakeEntry) => exec (.registerWrite start v) s =
        .next { s with lpt := port, wku := { s.wku with entries := s.wku.entries.set n e' } }
      (x.addr.toNat = 0xC30 + 2 * n.val → stores { e with settings0 := v }) ∧
      (x.addr.toNat = 0xC31 + 2 * n.val → stores { e with settings1 := v &&& 0x1F }) ∧
      (x.addr.toNat = 0xC80 + 4 * n.val → stores { e with tagValue := v ++ e.tagValue.setWidth 8 }) ∧
      (x.addr.toNat = 0xC81 + 4 * n.val → stores { e with tagValue := (e.tagValue >>> 8).setWidth 8 ++ v }) ∧
      (x.addr.toNat = 0xC82 + 4 * n.val → stores { e with tagMask := v ++ e.tagMask.setWidth 8 }) ∧
      (x.addr.toNat = 0xC83 + 4 * n.val → stores { e with tagMask := (e.tagMask >>> 8).setWidth 8 ++ v })

/-- 01 R19, 09 R152: a read data byte at byte i of frame f. The byte of a FILLING or HELD frame stands on SDO; of any
other frame 0x00, which is the misuse READ_NOT_OWNED once in a transaction. -/
def Obligations.FrameMemoryReadByFrameState : Prop :=
  ∀ (s : State) (start : Option Addr) (x : ActiveTxn) (f : FrameNo) (i : Nat), s.resetAsserted = false →
    s.txnFor true start = some x → i < 64 → x.addr.toNat = 64 * f.val + i →
    (s.frame f = .filling ∨ (∃ r, s.frame f = .held r) →
      exec (.frameMemoryRead start) s = .next { s with lpt := { s.lpt with
        txn := .active { x with addr := x.addr + 1 }, sdo := some (s.memByte x.addr.toNat) } }) ∧
    (s.frame f ≠ .filling → (∀ r, s.frame f ≠ .held r) →
      exec (.frameMemoryRead start) s = .next { s with lpt := { (
          if x.refusedReported then s.lpt else s.lpt.misused .readNotOwned (some f)) with
        txn := .active { x with addr := x.addr + 1, refusedReported := true }, sdo := some 0 } })

/-- 09 R152, R153, R160, 05 R99, 11 Tables 11-4, 11-7, 11-10: a read data byte outside frame memory, of a transaction
that does not begin at TAKE, INBOUND or COMPLETION. It gives the port's latch, the stored byte, the captured status or
entry byte, or 0x00, and changes nothing but the transaction. -/
def Obligations.PortReadsByAddress : Prop :=
  ∀ (s : State) (start : Option Addr) (x : ActiveTxn), s.resetAsserted = false →
    s.txnFor true start = some x → (Instr.frameMemoryRead start).wellFormed = true →
    let a := x.addr.toNat
    let gives := fun (b : Byte) => exec (.frameMemoryRead start) s = .next { s with lpt := { s.lpt with
      txn := .active { x with addr := x.addr + 1 }, sdo := some b } }
    (a = 0xC01 → gives s.lpt.takeLatch) ∧ (a = 0xC03 → gives s.lpt.inboundLatch) ∧
    (a = 0xC05 → gives s.lpt.completionLatch.frame) ∧ (a = 0xC06 → gives s.lpt.completionLatch.outcome) ∧
    (a = 0xC07 → gives s.lpt.completionLatch.attempts) ∧ (a = 0xC08 → gives s.lpt.completionLatch.tagHigh) ∧
    (a = 0xC09 → gives s.lpt.completionLatch.tagLow) ∧ (a = 0xC19 → gives s.lpt.enable) ∧
    (∀ n : Fin 3,
      (a = 0xC30 + 2 * n.val → gives (s.wakeEntry n).settings0) ∧
      (a = 0xC31 + 2 * n.val → gives (s.wakeEntry n).settings1) ∧
      (a = 0xC80 + 4 * n.val → gives (((s.wakeEntry n).tagValue >>> 8).setWidth 8)) ∧
      (a = 0xC81 + 4 * n.val → gives ((s.wakeEntry n).tagValue.setWidth 8)) ∧
      (a = 0xC82 + 4 * n.val → gives (((s.wakeEntry n).tagMask >>> 8).setWidth 8)) ∧
      (a = 0xC83 + 4 * n.val → gives ((s.wakeEntry n).tagMask.setWidth 8))) ∧
    (a ∈ [0xC00, 0xC02, 0xC04] ∨ (0xC0A ≤ a ∧ a ≤ 0xC18) ∨ (0xC1A ≤ a ∧ a ≤ 0xC1F) ∨ (0xC36 ≤ a ∧ a ≤ 0xC3F) ∨
      0xC8C ≤ a → gives 0) ∧
    (∀ i, i < 16 → a = 0xC20 + i → exec (.frameMemoryRead start) s = .next { s with lpt := { s.lpt with
      txn := .active { x with addr := x.addr + 1, statusCapture := some (x.statusCapture.getD s.statusArea) }
      sdo := some ((x.statusCapture.getD s.statusArea).getD i 0) } }) ∧
    ∀ (p : Pos) (i : Nat), i < 4 → a = 0xC40 + 4 * p.val + i →
      exec (.frameMemoryRead start) s = .next { s with lpt := { s.lpt with
        txn := .active { x with
          addr := x.addr + 1
          peerCaptures := match x.peerCaptures.lookup p with
            | some _ => x.peerCaptures
            | none => (p, (s.peer p).view) :: x.peerCaptures }
        sdo := some (((x.peerCaptures.lookup p).getD (s.peer p).view).byte i) } }

/-- 01 R19, R1, 09 R153: a written data byte at byte i of frame f is stored in a FILLING frame, every other byte of
frame memory as before, and discarded in any other, which is the misuse WRITE_NOT_FILLING once in a transaction. A byte
that reaches a port that acts, or any other address that stores nothing, by auto-increment does nothing; past frame
memory a byte is what a register write at its address is. That the two rows are one act at every address is the model's
reading (log 11). -/
def Obligations.FrameMemoryWriteByFrameState : Prop :=
  (∀ (s : State) (start : Option Addr) (v : Byte) (x : ActiveTxn) (f : FrameNo) (i : Nat), s.resetAsserted = false →
    s.txnFor false start = some x → i < 64 → x.addr.toNat = 64 * f.val + i →
    let sdo := if start.isSome then some 0 else s.lpt.sdo
    (s.frame f = .filling → ∃ t, exec (.frameMemoryWrite start v) s = .next t ∧
      t.memByte x.addr.toNat = v ∧ (∀ a, a ≠ x.addr.toNat → t.memByte a = s.memByte a) ∧
      t = { s with fpl := { s.fpl with mem := t.fpl.mem }
                   lpt := { s.lpt with txn := .active { x with addr := x.addr + 1 }, sdo := sdo } }) ∧
    (s.frame f ≠ .filling →
      exec (.frameMemoryWrite start v) s = .next { s with lpt := { (
          if x.refusedReported then s.lpt else s.lpt.misused .writeNotFilling (some f)) with
        txn := .active { x with addr := x.addr + 1, refusedReported := true }, sdo := sdo } })) ∧
  (∀ (s : State) (v : Byte) (x : ActiveTxn), s.resetAsserted = false → s.txnFor false none = some x →
    0xC00 ≤ x.addr.toNat → isStoredRegister x.addr = false →
    exec (.frameMemoryWrite none v) s = .next { s with lpt := { s.lpt with
      txn := .active { x with addr := x.addr + 1 } } }) ∧
  ∀ (s : State) (start : Option Addr) (v : Byte),
    exec (.frameMemoryWrite start v) s = exec (.registerWrite start v) s

/-- 01 Table 1-4, R5, R7: what the local requests do to the counts, where frames are in their places. -/
def Obligations.PoolCountsFollowTheRequests : Prop :=
  ∀ (s t : State), s.Placed → s.OwnEntryReset → s.resetAsserted = false →
    (s.takeReady = true → exec .take s = .next t →
      t.freeCount + 1 = s.freeCount ∧ t.reserve = s.reserve ∧ t.outboundOwned = s.outboundOwned + 1) ∧
    (s.takeReady = false → exec .take s = .next t →
      t.freeCount = s.freeCount ∧ t.reserve = s.reserve ∧ t.outboundOwned = s.outboundOwned) ∧
    (∀ f, s.frame f = .filling → exec (.post (BitVec.ofNat 8 f.val)) s = .next t →
      t.freeCount = s.freeCount ∧ t.reserve = s.reserve ∧ t.outboundOwned = s.outboundOwned) ∧
    (∀ n, exec (.cancel n) s = .next t →
      t.freeCount = s.freeCount ∧ t.reserve = s.reserve ∧ t.outboundOwned = s.outboundOwned) ∧
    (exec .popInbound s = .next t →
      t.freeCount = s.freeCount ∧ t.reserve = s.reserve ∧ t.outboundOwned = s.outboundOwned) ∧
    (s.osc.completion ≠ [] → exec .popCompletion s = .next t →
      t.freeCount = s.freeCount + 1 ∧ t.reserve = s.reserve ∧ t.outboundOwned + 1 = s.outboundOwned) ∧
    (∀ f r, s.frame f = .held r → exec (.release (BitVec.ofNat 8 f.val)) s = .next t →
      t.freeCount = s.freeCount + 1 ∧ t.reserve = s.reserve ∧ t.outboundOwned = s.outboundOwned)

/-! ## Between rounds -/

/-- 06 R102, R107, 08 R142: an idle-time count of 24 takes LISTENING to OBSERVING and FAULT, which holds nothing of a
round, to LISTENING with the count from 0, and latches no event. In any other state neither command is due and neither
does anything (log 1). 06 R103, R106: an OBSERVING station, which has no transmission (02 R28), leaves for
LISTENING with no event when the round stops, and for CONFLICT with LINE latched when its own PRESENCE cell reads LOW,
as WDAT then goes on reading (08 R140). -/
def Obligations.ParticipationByCountsAndCells : Prop :=
  ∀ s : State, s.resetAsserted = false →
    (s.rdc.participation = .listening → ∃ t, exec .boundary s = .next t ∧ 24 ≤ t.lif.idle ∧
      t.lif.wclk = .high ∧ t.lif.wdat = .high ∧ t.lif.wclkDrive = s.lif.wclkDrive ∧
      t.lif.wdatDrive = s.lif.wdatDrive ∧ t.lif.phase = s.lif.phase ∧
      t.rdc = { s.rdc with participation := .observing, sweep := .running 0, chain := 0, joinPending := false
                           rejoin := false, leadView := none } ∧ t.fen = s.fen ∧ s.SameTraffic t) ∧
    (s.rdc.participation ≠ .listening → exec .boundary s = .next s) ∧
    (s.rdc.participation = .fault → s.SilentOutOfRound → ∃ t, exec .faultRecovery s = .next t ∧
      t.OutOfRound .listening ∧ t.lif.idle = 0 ∧ s.SameTraffic t) ∧
    (s.rdc.participation ≠ .fault → exec .faultRecovery s = .next s) ∧
    (s.rdc.participation = .observing → s.osc.slot = none → s.rdc.stage ≠ .idle →
      ∃ t, exec .roundStopped s = .next t ∧ t.OutOfRound .listening ∧ t.lif.idle = 0 ∧ s.SameTraffic t) ∧
    (s.rdc.participation = .observing → s.osc.slot = none → s.rdc.stage = .presence →
      ∃ t, exec .ownPresenceCellLow s = .next t ∧ t.OutOfRound .conflict ∧ t.lif.wclk = .high ∧ t.lif.wdat = .low ∧
        t.peers = s.peers ∧ t.fpl = s.fpl ∧ t.osc = s.osc ∧ t.ibu = s.ibu ∧ t.wku = s.wku ∧
        t.lpt = { s.lpt with latched := { s.lpt.latched with line := true } })

/-- 08 R147, 06 R107: a stuck line takes LISTENING, OBSERVING, JOINING and MEMBER to FAULT, with the effects of leaving
the round and LINE latched; in CONFLICT and FAULT, where the station drives nothing (06 R101), only the wires, their
counts and the sweep timer's change. In CONFLICT the condition ends when the wires are read HIGH (by ROUND_STOPPED
there: log 45). -/
def Obligations.StuckLineLeadsToFault : Prop :=
  ∀ (s : State) (w : Wire), s.resetAsserted = false →
    (s.rdc.participation ≠ .conflict → s.rdc.participation ≠ .fault → ∃ t, exec (.stuckLine w) s = .next t ∧
      t.OutOfRound .fault ∧ t.lif.idle = 0 ∧ s.SameElsewhere t ∧
      t.lpt = { s.lpt with latched := { s.lpt.latched with line := true } }) ∧
    (s.rdc.participation = .conflict ∨ s.rdc.participation = .fault → ∃ t, exec (.stuckLine w) s = .next t ∧
      t.rdc = { s.rdc with sweep := t.rdc.sweep } ∧ lineStuck t.lif = true ∧ t.fen = s.fen ∧ s.SameTraffic t ∧
      (s.SilentOutOfRound → t.lif.wclkDrive = s.lif.wclkDrive ∧ t.lif.wdatDrive = s.lif.wdatDrive ∧
        t.lif.phase = s.lif.phase ∧ t.lif.openSeen = s.lif.openSeen ∧ t.rdc = s.rdc)) ∧
    (s.rdc.participation = .conflict → ∃ t, exec .roundStopped s = .next t ∧ lineStuck t.lif = false ∧
      t.lif.wclk = .high ∧ t.lif.wdat = .high ∧ 24 ≤ t.lif.idle ∧ t.lif.wclkDrive = s.lif.wclkDrive ∧
      t.lif.wdatDrive = s.lif.wdatDrive ∧ t.rdc = { s.rdc with sweep := t.rdc.sweep } ∧ t.fen = s.fen ∧
      s.SameTraffic t)

/-- 02 R40, 01 R11, 04 R76: what becomes of the transmission in the slot when the station leaves the round, by a stuck
line, by the sync loss of a header's end (07 R132), or by the act of leaving whatever causes it: of a pool frame, of a
new credit frame, of a retry that has started, of EMPTY; a retry whose window has not started stands as it was (log
16). -/
def Obligations.WithdrawalSettlesTheSlot : Prop :=
  ∀ (s t : State), s.resetAsserted = false → s.readsLine = true →
    (∃ w, exec (.stuckLine w) s = .next t) ∨
      (∃ bytes h, s.AtForeignHeader bytes h ∧ exec (.headerEnd bytes) s = .next t) ∨
      (∃ entered, s.leaveRound entered = t) →
    (∀ f q c, s.osc.slot = some (.frame f) → s.frame f = .sending q c →
      (∀ p, q.peer = some p → p ≠ s.own) →
      (4 ≤ q.attempts + 1 → t.frame f = .done (q.doneRecord .peerLost (q.attempts + 1)) ∧
        t.osc.completion = s.osc.completion ++ [f] ∧ t.peers = s.peers) ∧
      (q.attempts + 1 < 4 → c = false → t.frame f = .queued { q with attempts := q.attempts + 1 } ∧
        f ∈ t.queueOf q.cls ∧ t.osc.completion = s.osc.completion ∧ t.peers = s.peers) ∧
      (q.attempts + 1 < 4 → c = true → t.frame f = .done (q.doneRecord .cancelled (q.attempts + 1)) ∧
        t.osc.completion = s.osc.completion ++ [f] ∧
        t.peers = match q.peer, q.openSeq with
          | some p, some o =>
            if 1 ≤ o.grant then s.peers.set p { s.peer p with
              openCredit := some { seq := o.seq, grant := o.grant, attempts := q.attempts + 1 } }
            else s.peers.set p { s.peer p with sendSeq := (s.peer p).sendSeq + 1 }
          | _, _ => s.peers) ∧
      ∀ g, g ≠ f → t.frame g = s.frame g) ∧
    (∀ p, s.osc.slot = some (.newCredit p none) → t.peers = s.peers ∧ t.fpl = s.fpl) ∧
    (∀ p o, p ≠ s.own → s.osc.slot = some (.newCredit p (some o)) → t.fpl = s.fpl ∧
      t.peers = s.peers.set p { s.peer p with
        openCredit := some { seq := o.seq, grant := o.grant, attempts := 1 } }) ∧
    (∀ p o, p ≠ s.own → s.osc.slot = some (.creditRetry p) → (s.peer p).openCredit = some o → s.fen.tx.isSome = true →
      t.fpl = s.fpl ∧
      t.peers = if 4 ≤ o.attempts + 1 then
          s.peers.set p { s.peer p with
            pending := (s.peer p).pending - o.grant, owed := (s.peer p).owed + o.grant
            sendSeq := (s.peer p).sendSeq + 1, openCredit := none }
        else s.peers.set p { s.peer p with openCredit := some { o with attempts := o.attempts + 1 } }) ∧
    (∀ p, s.osc.slot = some (.creditRetry p) → s.fen.tx = none → t.fpl = s.fpl ∧ t.peers = s.peers) ∧
    (s.osc.slot = some .empty ∨ s.osc.slot = none → t.fpl = s.fpl ∧ t.peers = s.peers)

/-- 06 R108, R109, R110, 08 R143, R144: a station between rounds that has a reason when its idle-time count is at 32, and
neither holds nor has seen an OPEN, opens: it pulls WDAT low and counts from 0. Without a reason, with an OPEN of its own
or seen, in a round or out of it the command is not due and nothing changes (log 1). The sweep timer that has run out is
a reason. That the cell-times still missing pass inside the commands is the model's choice (log 4), and so are the counts
at a sweep that runs out while a wire reads low (log 24). -/
def Obligations.OpenWithAReason : Prop :=
  ∀ s : State, s.resetAsserted = false →
    (s.betweenRounds = true → s.noOpen = true →
      s.reasonToOpen = true ∨ (s.quietUntil 32).reasonToOpen = true → ∃ t, exec .openRound s = .next t ∧
      t.lif.wdatDrive = true ∧ t.lif.wdat = .low ∧ t.lif.wclk = .high ∧ t.lif.openCount = some 0 ∧ t.lif.idle = 0 ∧
      t.lif.wclkDrive = s.lif.wclkDrive ∧ t.rdc = { s.rdc with sweep := t.rdc.sweep } ∧ t.fen = s.fen ∧
      s.SameTraffic t) ∧
    (s.betweenRounds = true → s.noOpen = true → (s.quietUntil 32).reasonToOpen = false →
      exec .openRound s = .next s) ∧
    (s.lif.openSeen = true ∨ s.lif.openCount.isSome = true ∨ s.rdc.stage ≠ .idle ∨ s.readsLine = false →
      exec .openRound s = .next s) ∧
    (∀ n, s.rdc.sweep = .running n → ∃ t, exec .sweepRunOut s = .next t ∧
      t.rdc = { s.rdc with sweep := .running 65536 } ∧ t.sweepOut = true ∧ t.fen = s.fen ∧ s.SameTraffic t ∧
      t.lif.wclk = s.lif.wclk ∧ t.lif.wdat = s.lif.wdat ∧ t.lif.wclkDrive = s.lif.wclkDrive ∧
      t.lif.wdatDrive = s.lif.wdatDrive ∧ t.lif.openSeen = s.lif.openSeen) ∧
    (s.rdc.sweep = .stopped ∨ s.rdc.sweep = .held → exec .sweepRunOut s = .next s) ∧
    (s.rdc.participation = .member → (s.reasonToOpen = true ↔
      s.hasTransmission = true ∨ s.rdc.rejoin = true ∨ ∃ n, s.rdc.sweep = .running n ∧ 65536 ≤ n)) ∧
    (s.rdc.participation = .observing → (s.reasonToOpen = true ↔
      s.rdc.joinPending = true ∨ ∃ n, s.rdc.sweep = .running n ∧ 65536 ≤ n))

/-- 08 R142, R144, R145, 06 R109: a WDAT fall on an idle line sets open seen at an OBSERVING or MEMBER station and ends
the idle count at any; a WDAT rise with open seen set abandons the OPEN; a WCLK fall with open seen clear starts no
round. Each restarts the idle count and latches nothing; a rise of WDAT leaves WCLK and its count alone. That the wires and counts of a CONFLICT station go with the
edges is the model's reading (log 41), and so is a WDAT rise with open seen clear (log 45). Inside a round, in the high phase of a cell, a change of WDAT that
this station does not make moves the wire and the counts alone (08 R140), by the same two rows (log 48). -/
def Obligations.EdgesOnTheIdleLine : Prop :=
  ∀ s : State, s.resetAsserted = false →
    (s.rdc.stage = .idle → s.noOpen = true → ∃ t, exec .openSeen s = .next t ∧
      t.lif = { s.lif with wclk := .high, wdat := .low, idle := 0, clockLow := 0, dataLow := 0
                           openSeen := s.isMember || s.isObserving } ∧
      t.rdc = s.rdc ∧ t.fen = s.fen ∧ s.SameTraffic t) ∧
    (s.rdc.stage ≠ .idle → s.noOpen = true →
      (s.lif.wclk = .high → s.lif.wdat = .high → ∃ t, exec .openSeen s = .next t ∧
        t.lif = { s.lif with wdat := .low, idle := 0, clockLow := 0, dataLow := 0 } ∧
        t.rdc = s.rdc ∧ t.fen = s.fen ∧ s.SameTraffic t) ∧
      (s.lif.wclk = .low ∨ s.lif.wdat = .low → exec .openSeen s = .next s)) ∧
    (s.lif.openSeen = true ∨ (s.lif.openCount = none ∧ s.lif.wdat = .low ∧
        (s.rdc.stage = .idle ∨ (s.lif.wclk = .high ∧ s.lif.wdatDrive = false))) →
      ∃ t, exec .openAbandoned s = .next t ∧
      t.lif = { s.lif with wdat := .high, idle := 0, dataLow := 0, openSeen := false } ∧
      t.rdc = s.rdc ∧ t.fen = s.fen ∧ s.SameTraffic t) ∧
    (s.rdc.stage = .idle → s.noOpen = true → ∃ t, exec .strayClockFall s = .next t ∧
      t.lif = { s.lif with wclk := .low, idle := 0, clockLow := 0, dataLow := 0 } ∧
      t.rdc = s.rdc ∧ t.fen = s.fen ∧ s.SameTraffic t)

/-! ## Round start, CARRY, round end -/

/-- 06 R104, R109, R118, 08 R143, R144: a round starts by the station's own OPEN, by another's, or after a CARRY cell
read LOW, where the chain count stays at 8 and an OBSERVING station has completed its observation (06 R103). Whether the join it
takes is a rejoin is kept in the model's flag (log 39); that the sweep timer of a station that becomes JOINING is held
is the model's choice (log 47). -/
def Obligations.RoundStartActs : Prop :=
  ∀ s : State, s.resetAsserted = false →
    (s.betweenRounds = true → s.lif.openCount.isSome = true →
      ∃ t, exec .openComplete s = .next t ∧ s.RoundStarted t s.rdc.joinPending true 1) ∧
    (s.betweenRounds = true → s.noOpen = false →
      ∃ t, exec .roundStart s = .next t ∧ s.RoundStarted t s.rdc.joinPending s.lif.openCount.isSome 1) ∧
    (s.rdc.participation = .member ∨ s.rdc.participation = .observing →
      s.rdc.stage = .carryCell ∨ (s.isObserving = true ∧ s.rdc.stage = .carry) →
      ∃ t, exec .chainedRoundStart s = .next t ∧
        s.RoundStarted t (s.rdc.joinPending || s.isObserving) (s.lif.phase != .none) (min 8 (s.rdc.chain + 1)))

/-- 06 R117, R119, R103, 08 R146: a MEMBER drives the CARRY cell when its chain count is below 8 and it has a
transmission or the rejoin request; a CARRY cell read HIGH, which this station does not drive, ends the round. That the
staging buffer stays until the next window is the model's reading (log 31). -/
def Obligations.CarryAndRoundEnd : Prop :=
  ∀ s : State, s.resetAsserted = false → s.rdc.participation = .member ∨ s.rdc.participation = .observing →
    (s.rdc.stage = .carry → ∃ t, exec .carryDrive s = .next t ∧
      (t.lif.wdatDrive = true ↔ s.rdc.participation = .member ∧ s.rdc.chain < 8 ∧
        (s.hasTransmission = true ∨ s.rdc.rejoin = true)) ∧
      t.rdc = { s.rdc with stage := .carryCell } ∧ t.fen = s.fen ∧ s.SameTraffic t) ∧
    (s.rdc.stage = .carryCell ∨ (s.isObserving = true ∧ s.rdc.stage = .carry) → s.lif.wdatDrive = false →
      ∃ t, exec .roundEnd s = .next t ∧ t.fen = { s.fen with undo := none } ∧
      t.rdc = { s.rdc with chain := 0, claimants := [], window := none, sweep := .running 0, stage := .idle
                           joinPending := s.rdc.joinPending || s.isObserving } ∧
      t.lif.wclkDrive = false ∧ t.lif.wdatDrive = false ∧ t.lif.wclk = .high ∧ t.lif.wdat = .high ∧
      t.lif.phase = .none ∧ t.lif.idle = 0 ∧ s.SameTraffic t)

/-! ## The fields of a round -/

/-- 06 R111: the lead view becomes the AND of the views that the others and this station, if it drives, put on the
line. That it does so at a rejoining station too, for which 06 R104 has it unchanged, is the model's choice (log 46). -/
def Obligations.LeadFieldEnd : Prop :=
  ∀ (s : State) (others : BitVec 4), s.resetAsserted = false → s.readsLine = true → s.rdc.stage = .lead →
    let own : BitVec 4 := match s.rdc.leadView with
      | some p => if s.rdc.participation = .observing then 15 else BitVec.ofNat 4 p.val
      | none => 15
    ∃ t, exec (.leadFieldEnd others) s = .next t ∧
      t.rdc = { s.rdc with leadView := some (Fin.ofNat 16 (others &&& own).toNat), stage := .presence } ∧
      t.fen = s.fen ∧ s.SameTraffic t

/-- 05 R84, R85, 06 R112: at the end of the PRESENCE field a MEMBER counts presence for every PRESENT peer; a count of
3 loses the peer, whose QUEUED frames complete PEER_LOST: the peers in ascending position order, of each the URGENT
queue first and then the ROUTINE queue. An OBSERVING station whose own cell reads HIGH, and a JOINING one, keep the
record and count nothing; one whose own cell reads LOW does what OWN_PRESENCE_CELL_LOW does (06 R103; log 30). -/
def Obligations.PresenceFieldEnd : Prop :=
  ∀ (s : State) (others : Cells), s.resetAsserted = false → s.rdc.stage = .presence →
    (s.rdc.participation = .member → ∃ t, exec (.presenceFieldEnd others) s = .next t ∧
      t.rdc = { s.rdc with presence := others &&& ~~~((1 : Cells) <<< s.own.val), stage := .join } ∧
      s.SameElsewhere t ∧ t.fen = s.fen ∧
      (∀ p, p ≠ s.own →
        ((s.peer p).present = false → t.peer p = s.peer p) ∧
        ((s.peer p).present = true → others.getLsbD p.val = false → t.peer p = { s.peer p with missed := 0 }) ∧
        ((s.peer p).present = true → others.getLsbD p.val = true → (s.peer p).missed + 1 < 3 →
          t.peer p = { s.peer p with missed := (s.peer p).missed + 1 }) ∧
        ((s.peer p).present = true → others.getLsbD p.val = true → 3 ≤ (s.peer p).missed + 1 →
          t.peer p = { PeerEntry.atReset with missed := 3 } ∧ t.lpt.latched.peer = true)) ∧
      ((∀ p, p ≠ s.own → (s.peer p).present = true → others.getLsbD p.val = true → (s.peer p).missed + 1 < 3) →
        t.fpl = s.fpl ∧ t.osc = s.osc ∧ t.lpt = s.lpt) ∧
      let lost : List Pos := s.peerPositions.filter fun p =>
        (s.peer p).present && others.getLsbD p.val && decide (3 ≤ (s.peer p).missed + 1)
      let toLost := fun (f : FrameNo) => lost.any fun p => (s.frame f).queuedTo p
      (s.Placed →
        t.osc = { s.osc with
          completion := s.osc.completion ++ lost.flatMap fun p =>
            s.osc.urgent.filter (fun f => (s.frame f).queuedTo p) ++ s.osc.routine.filter (fun f => (s.frame f).queuedTo p)
          urgent := s.osc.urgent.filter (fun f => !toLost f), routine := s.osc.routine.filter (fun f => !toLost f) } ∧
        (∀ f q p, s.frame f = .queued q → q.peer = some p → p ∈ lost →
          t.frame f = .done (q.doneRecord .peerLost q.attempts)) ∧
        ∀ f, toLost f = false → t.frame f = match s.frame f with
          | .arrived i => .arrived (if lost.any (fun p => i.peer == some p) then { i with creditBearing := false } else i)
          | .held i => .held (if lost.any (fun p => i.peer == some p) then { i with creditBearing := false } else i)
          | r => r)) ∧
    (s.rdc.participation = .joining ∨ (s.rdc.participation = .observing ∧ others.getLsbD s.own.val = true) →
      ∃ t, exec (.presenceFieldEnd others) s = .next t ∧
        t.lif.wdat = (if s.rdc.participation = .joining ∧ s.own = 15 then .low
          else if others.getLsbD 15 then .high else .low) ∧
        t.rdc = { s.rdc with
          presence := if s.rdc.participation = .joining then others &&& ~~~((1 : Cells) <<< s.own.val) else others
          stage := .join } ∧ t.fen = s.fen ∧ s.SameTraffic t) ∧
    (s.rdc.participation = .observing → others.getLsbD s.own.val = false →
      exec (.presenceFieldEnd others) s = exec .ownPresenceCellLow s)

/-- 05 R89, R91, R90: at the end of the JOIN field a MEMBER reinitialises the entry of every peer whose cell read LOW,
leaves every other entry, and sets the rejoin request on an unexpected member. Where frames are in their places, the
QUEUED frames to a reinitialised peer lose their sequences and keep place and attempts, the inbound frames from it lose
credit-bearing, and no other frame changes. 06 R113: an OBSERVING station takes no action. -/
def Obligations.JoinFieldEndAtMemberAndObserver : Prop :=
  ∀ (s : State) (others : Cells), s.resetAsserted = false → s.rdc.stage = .join →
    (s.rdc.participation = .observing → ∃ t, exec (.joinFieldEnd others) s = .next t ∧
      t.rdc = { s.rdc with stage := .claim } ∧ t.fen = s.fen ∧ s.SameTraffic t) ∧
    (s.rdc.participation = .member → ∃ t, exec (.joinFieldEnd others) s = .next t ∧
      (∀ p, p ≠ s.own →
        (others.getLsbD p.val = false → t.peer p = { PeerEntry.atReset with present := true, owed := s.c0 } ∧
          t.lpt.latched.peer = true) ∧
        (others.getLsbD p.val = true → t.peer p = s.peer p)) ∧
      (t.rdc.rejoin = true ↔ s.rdc.rejoin = true ∨ ∃ p, p ≠ s.own ∧ s.rdc.presence.getLsbD p.val = false ∧
        others.getLsbD p.val = true ∧ (s.peer p).present = false) ∧
      t.rdc = { s.rdc with rejoin := t.rdc.rejoin, stage := .claim } ∧ t.osc = s.osc ∧ t.fen = s.fen ∧
      s.SameElsewhere t ∧
      let joined : List Pos := s.peerPositions.filter fun p => !others.getLsbD p.val
      let ofJoined := fun (p : Option Pos) => joined.any fun r => p == some r
      (s.Placed → ∀ f, t.frame f = match s.frame f with
        | .queued q => .queued (if ofJoined q.peer then { q with openSeq := none } else q)
        | .arrived i => .arrived (if ofJoined i.peer then { i with creditBearing := false } else i)
        | .held i => .held (if ofJoined i.peer then { i with creditBearing := false } else i)
        | r => r))

/-- 05 R94, R95, 06 R104: in its own join round the station sets every entry from the two fields, completes the QUEUED
frames to those left ABSENT, becomes MEMBER and latches JOINED. The completions come in ascending position order, of
each peer the URGENT queue first and then the ROUTINE queue; the inbound frames of every peer whose entry is
reinitialised or lost lose credit-bearing, and no other frame changes (05 R86, R90). Where frames are in their places. -/
def Obligations.OwnJoinRoundSetsEveryEntry : Prop :=
  ∀ (s : State) (others : Cells), s.resetAsserted = false → s.rdc.stage = .join → s.rdc.participation = .joining →
    s.Placed →
    ∃ t, exec (.joinFieldEnd others) s = .next t ∧ t.rdc.participation = .member ∧ t.rdc.rejoin = false ∧
      t.rdc.stage = .claim ∧ t.lpt.latched.joined = true ∧ t.fen = s.fen ∧ s.SameElsewhere t ∧
      (∀ p, p ≠ s.own →
        let seen := s.rdc.presence.getLsbD p.val = false ∨ others.getLsbD p.val = false
        let outcome : Completion := if (s.peer p).present = true ∧ s.rdc.joinFromMember = true then .peerLost
          else .peerAbsent
        (seen → t.peer p = { PeerEntry.atReset with present := true, owed := s.c0 } ∧ t.lpt.latched.peer = true ∧
          ∀ f q, s.frame f = .queued q → q.peer = some p → t.frame f = .queued { q with openSeq := none }) ∧
        (¬ seen → (s.peer p).present = true → t.peer p = PeerEntry.atReset ∧ t.lpt.latched.peer = true) ∧
        (¬ seen → (s.peer p).present = false → t.peer p = s.peer p) ∧
        (¬ seen → ∀ f q, s.frame f = .queued q → q.peer = some p →
          t.frame f = .done (q.doneRecord outcome q.attempts))) ∧
      let seen := fun (p : Pos) => !s.rdc.presence.getLsbD p.val || !others.getLsbD p.val
      let unseen : List Pos := s.peerPositions.filter fun p => !seen p
      let changed : List Pos := s.peerPositions.filter fun p => seen p || (s.peer p).present
      let toUnseen := fun (f : FrameNo) => unseen.any fun p => (s.frame f).queuedTo p
      t.osc = { s.osc with
        completion := s.osc.completion ++ unseen.flatMap fun p =>
          s.osc.urgent.filter (fun f => (s.frame f).queuedTo p) ++ s.osc.routine.filter (fun f => (s.frame f).queuedTo p)
        urgent := s.osc.urgent.filter (fun f => !toUnseen f), routine := s.osc.routine.filter (fun f => !toUnseen f) } ∧
      ∀ f, (∀ q p, s.frame f = .queued q → q.peer = some p → p = s.own) → t.frame f = match s.frame f with
        | .arrived i => .arrived (if changed.any (fun p => i.peer == some p) then { i with creditBearing := false } else i)
        | .held i => .held (if changed.any (fun p => i.peer == some p) then { i with creditBearing := false } else i)
        | r => r

/-- 05 R86, R90, 01 R13, R18: loss of a peer, and reinitialisation of its entry, as the one act that every command makes
that loses or reinitialises. Where frames are in their places. -/
def Obligations.LossAndReinitialisation : Prop :=
  ∀ (s : State) (p : Pos), s.Placed → p ≠ s.own →
    let marks := fun (r : FrameRecord) => match r with
      | .arrived i => FrameRecord.arrived (if i.peer = some p then { i with creditBearing := false } else i)
      | .held i => .held (if i.peer = some p then { i with creditBearing := false } else i)
      | r => r
    (∀ (missed : Nat) (outcome : Completion),
      let t := s.losePeer p missed outcome
      let lost := s.osc.urgent.filter (fun f => (s.frame f).queuedTo p) ++
        s.osc.routine.filter (fun f => (s.frame f).queuedTo p)
      t.peers = s.peers.set p { PeerEntry.atReset with missed := missed } ∧
      (∀ f q, s.frame f = .queued q → q.peer = some p → t.frame f = .done (q.doneRecord outcome q.attempts)) ∧
      (∀ f, (s.frame f).queuedTo p = false → t.frame f = marks (s.frame f)) ∧
      t.osc = { s.osc with
        completion := s.osc.completion ++ lost
        urgent := s.osc.urgent.filter (fun f => !(s.frame f).queuedTo p)
        routine := s.osc.routine.filter (fun f => !(s.frame f).queuedTo p) } ∧
      t = { s with peers := t.peers, osc := t.osc, fpl := { s.fpl with frames := t.fpl.frames }
                   lpt := { s.lpt with latched := { s.lpt.latched with peer := true } } }) ∧
    let u := s.reinitPeer p
    u.peers = s.peers.set p { PeerEntry.atReset with present := true, owed := s.c0 } ∧
    (∀ f q, s.frame f = .queued q → u.frame f =
      .queued (if q.peer = some p then { q with openSeq := none } else q)) ∧
    (∀ f, (∀ q, s.frame f ≠ .queued q) → u.frame f = marks (s.frame f)) ∧
    u = { s with peers := u.peers, fpl := { s.fpl with frames := u.fpl.frames }
                 lpt := { s.lpt with latched := { s.lpt.latched with peer := true } } }

/-! ## CLAIM -/

/-- 02 R25, R27, 04 R73, R74, R78: which frames are sendable, which peers are credit-frame candidates, and the order of
the choice. -/
def Obligations.ChoiceAtTheClaimCell : Prop :=
  ∀ s : State,
    (∀ f q p, s.frame f = .queued q → q.peer = some p → (s.sendable f = true ↔
      (s.peer p).present = true ∧ 1 ≤ (s.peer p).held ∧ (s.peer p).openCredit = none ∧
      (∀ g, g ≠ f → (s.frame g).holdsSeqTo p = false) ∧
      (s.queueOf q.cls).find? (fun g => (s.frame g).queuedTo p) = some f)) ∧
    (∀ f q, s.frame f = .queued q → q.peer = none → (s.sendable f = true ↔
      (s.queueOf q.cls).find? (fun g => (s.frame g).queuedNotice) = some f)) ∧
    (∀ p, s.creditCandidate p = true ↔
      (s.peer p).present = true ∧ (s.peer p).openCredit = none ∧ (∀ g, (s.frame g).holdsSeqTo p = false) ∧
      (∀ g, g ∈ s.osc.urgent ∨ g ∈ s.osc.routine → (s.frame g).queuedTo p = true → s.sendable g = false) ∧
      1 ≤ (s.peer p).owed ∧ 1 ≤ s.spare) ∧
    (∀ p, s.bestCredit = some p → p ≠ s.own ∧ s.creditCandidate p = true ∧
      ∀ r, r ≠ s.own → s.creditCandidate r = true →
        (s.peer r).owed < (s.peer p).owed ∨ ((s.peer r).owed = (s.peer p).owed ∧ p ≤ r)) ∧
    (s.bestCredit = none → ∀ r, r ≠ s.own → s.creditCandidate r = false) ∧
    (∀ f, s.osc.urgent.find? s.sendable = some f → s.choice = some (.frame f)) ∧
    (s.osc.urgent.find? s.sendable = none →
      (∀ p, s.peerPositions.find? (fun p => (s.peer p).openCredit.isSome) = some p →
        s.choice = some (.creditRetry p)) ∧
      (s.peerPositions.find? (fun p => (s.peer p).openCredit.isSome) = none →
        let credit := s.bestCredit.map (fun p => Transmission.newCredit p none)
        let routine := (s.osc.routine.find? s.sendable).map Transmission.frame
        s.choice = if s.osc.creditLast then routine.or credit else credit.or routine)) ∧
    (s.hasTransmission = true ↔ s.rdc.participation = .member ∧ s.choice ≠ none)

/-- 06 R114, 02 R28, 06 R106: at its own CLAIM cell a MEMBER drives the cell when the choice yields a transmission, which
enters the slot, a pool frame leaving its queue for SENDING; when it chose nothing the cell reads HIGH and the slot
stays empty, or it reads LOW and the station enters CONFLICT. -/
def Obligations.OwnClaimCell : Prop :=
  ∀ (s : State) (others : Level), s.resetAsserted = false → s.rdc.participation = .member → s.rdc.stage = .claim →
    s.osc.slot = none →
    (∀ f q, s.choice = some (.frame f) → s.frame f = .queued q → ∃ t, exec (.ownClaimCell others) s = .next t ∧
      t.lif.wdatDrive = true ∧ t.lif.wdat = .low ∧ t.rdc = { s.rdc with stage := .claimed } ∧
      t = { s with lif := t.lif, rdc := t.rdc
                   fpl := { s.fpl with frames := s.fpl.frames.set f (.sending q false) }
                   osc := { s.osc with
                     slot := some (.frame f), urgent := s.osc.urgent.filter (fun g => g ≠ f)
                     routine := s.osc.routine.filter (fun g => g ≠ f) } }) ∧
    (∀ x, s.choice = some x → (∀ f, x ≠ .frame f) → ∃ t, exec (.ownClaimCell others) s = .next t ∧
      t.lif.wdatDrive = true ∧ t.lif.wdat = .low ∧ t.rdc = { s.rdc with stage := .claimed } ∧
      t = { s with lif := t.lif, rdc := t.rdc, osc := { s.osc with slot := some x } }) ∧
    (s.choice = none → others = .high → ∃ t, exec (.ownClaimCell others) s = .next t ∧
      t.lif.wdatDrive = false ∧ t.rdc = { s.rdc with stage := .claimed } ∧ t.fen = s.fen ∧ s.SameTraffic t) ∧
    (s.choice = none → others = .low → ∃ t, exec (.ownClaimCell others) s = .next t ∧ t.OutOfRound .conflict ∧
      t.lif.wclk = .high ∧ t.lif.wdat = .low ∧
      t.lpt = { s.lpt with latched := { s.lpt.latched with line := true } } ∧
      t.peers = s.peers ∧ t.fpl = s.fpl ∧ t.osc = s.osc ∧ t.ibu = s.ibu ∧ t.wku = s.wku)

/-- 06 R114 to R116, 03 R48: at the end of the CLAIM field the claimants are the positions whose cells read LOW, in
window order from the lead; the next lead is the first claimant plus 1, or the lead itself where none claimed; the first
window starts a staging buffer. A MEMBER's own cell is LOW exactly when it drove it. -/
def Obligations.ClaimFieldEnd : Prop :=
  ∀ (s : State) (others : Cells) (lead : Pos), s.resetAsserted = false →
    (s.rdc.participation = .member ∧ s.rdc.stage = .claimed) ∨
      (s.rdc.participation = .observing ∧ s.rdc.stage = .claim) →
    s.rdc.leadView = some lead →
    let claims : Pos → Prop := fun p => if s.rdc.participation = .member ∧ p = s.own then s.osc.slot ≠ none
      else others.getLsbD p.val = false
    ∃ t, exec (.claimFieldEnd others) s = .next t ∧
      (∀ p, p ∈ t.rdc.claimants ↔ claims p) ∧ t.rdc.claimants.Pairwise (fun p r => p - lead < r - lead) ∧
      (t.rdc.claimants = [] → t.rdc = { s.rdc with claimants := [], window := none, stage := .carry } ∧ t.fen = s.fen) ∧
      (∀ first rest, t.rdc.claimants = first :: rest →
        t.rdc = { s.rdc with claimants := first :: rest, window := some 0, leadView := some (first + 1)
                             stage := .header } ∧
        t.fen.staging.owner = first ∧ t.fen.staging.valid = true ∧ t.fen.staging.header = [] ∧
        t.fen.staging.payload = [] ∧ t.fen.staging.headerState = .arriving ∧ t.fen.tx = none ∧ t.fen.undo = none) ∧
      s.SameTraffic t

/-! ## The own window -/

/-- 02 R31, Table 2-1, 04 R66, R67, 07 R121, R129: at the start of its own window the station builds the header of the
pool frame in the slot and reads its payload. A MESSAGE with no sequence takes the send sequence and a grant of
min(owed, spare), which moves from owed to pending; a retry and a NOTICE take nothing. -/
def Obligations.WindowStartOfAPoolFrame : Prop :=
  ∀ (s : State) (f : FrameNo) (q : Posted), s.resetAsserted = false → s.ownWindow = true → s.rdc.stage = .header →
    s.fen.tx = none → s.osc.slot = some (.frame f) → s.frame f = .sending q false →
    let sends := fun (t : State) (h : HeaderFields) =>
      t.fen.tx = some { header := encodeHeader h, collidedAt := none
                        payload := (List.range q.length).map fun i => s.memByte (64 * f.val + (8 + i)) } ∧
      t.fen = { s.fen with undo := t.fen.undo, tx := t.fen.tx } ∧
      t.lif.wclk = .low ∧ (t.lif.wdatDrive = true ↔ s.own.val < 8) ∧ t.rdc = s.rdc ∧
      t.osc = { s.osc with creditLast := false } ∧ t.lpt = s.lpt ∧ s.SameElsewhere t
    (∀ p, q.peer = some p → p ≠ s.own → q.openSeq = none →
      let k := min (s.peer p).owed s.spare
      ∃ t, exec .windowStart s = .next t ∧
        sends t { source := s.own, dest := p, kind := .message, cls := q.cls, seq := (s.peer p).sendSeq, grant := k
                  length := q.length, tag := q.tag } ∧
        t.fpl = { s.fpl with frames := s.fpl.frames.set f (.sending
          { q with openSeq := some { seq := (s.peer p).sendSeq, grant := k } } false) } ∧
        t.peers = s.peers.set p { s.peer p with owed := (s.peer p).owed - k, pending := (s.peer p).pending + k } ∧
        t.reserve = s.reserve + k ∧ t.spare = s.spare - k) ∧
    (∀ p o, q.peer = some p → q.openSeq = some o → ∃ t, exec .windowStart s = .next t ∧
      sends t { source := s.own, dest := p, kind := .message, cls := q.cls, seq := o.seq, grant := o.grant
                length := q.length, tag := q.tag } ∧ t.fpl = s.fpl ∧ t.peers = s.peers) ∧
    (q.peer = none → ∃ t, exec .windowStart s = .next t ∧
      sends t { source := s.own, dest := 0, kind := .notice, cls := q.cls, seq := 0, grant := 0, length := q.length
                tag := q.tag } ∧ t.fpl = s.fpl ∧ t.peers = s.peers)

/-- 02 R42, R41: a cancel request found at the start of the own window: EMPTY takes the slot and is sent, the frame
completes CANCELLED with its attempts, its sequence is settled, no header is built and no grant is taken. -/
def Obligations.CancelCheckAtWindowStart : Prop :=
  ∀ (s : State) (f : FrameNo) (q : Posted), s.resetAsserted = false → s.ownWindow = true → s.rdc.stage = .header →
    s.fen.tx = none → s.osc.slot = some (.frame f) → s.frame f = .sending q true →
    (∀ p, q.peer = some p → p ≠ s.own) →
    ∃ t, exec .windowStart s = .next t ∧
      t.osc = { s.osc with slot := some .empty, completion := s.osc.completion ++ [f] } ∧
      t.fpl = { s.fpl with frames := s.fpl.frames.set f (.done (q.doneRecord .cancelled q.attempts)) } ∧
      t.peers = s.peersAfterCancel q q.attempts ∧
      t.fen.tx = some { header := List.replicate 7 0xFF, payload := [], collidedAt := none } ∧
      t.fen = { s.fen with undo := t.fen.undo, tx := t.fen.tx } ∧
      t.lif.wclk = .low ∧ t.lif.wdatDrive = false ∧ t.rdc = s.rdc ∧ t.lpt = s.lpt ∧ s.SameElsewhere t

/-- 04 R66, R75, R78, Table 4-3, 07 R121, R129: the start of the own window with a new credit frame, a retry of an open
credit frame, or EMPTY in the slot. -/
def Obligations.WindowStartOfACreditFrame : Prop :=
  ∀ s : State, s.resetAsserted = false → s.ownWindow = true → s.rdc.stage = .header → s.fen.tx = none →
    let sends := fun (t : State) (bytes : List Byte) =>
      t.fen.tx = some { header := bytes, payload := [], collidedAt := none } ∧
      t.fen = { s.fen with undo := t.fen.undo, tx := t.fen.tx } ∧
      t.lif.wclk = .low ∧ t.rdc = s.rdc ∧ t.lpt = s.lpt ∧ t.fpl = s.fpl ∧ s.SameElsewhere t
    let header := fun (p : Pos) (seq : Seq) (grant : Nat) => encodeHeader
      { source := s.own, dest := p, kind := .credit, cls := .routine, seq := seq, grant := grant, length := 0, tag := 0 }
    (∀ p b, s.osc.slot = some (.newCredit p b) → p ≠ s.own →
      let k := min (s.peer p).owed s.spare
      (k = 0 → ∃ t, exec .windowStart s = .next t ∧ sends t (List.replicate 7 0xFF) ∧ t.peers = s.peers ∧
        t.osc = { s.osc with slot := some .empty, creditLast := true }) ∧
      (1 ≤ k → ∃ t, exec .windowStart s = .next t ∧ sends t (header p (s.peer p).sendSeq k) ∧
        t.peers = s.peers.set p { s.peer p with owed := (s.peer p).owed - k, pending := (s.peer p).pending + k } ∧
        t.osc = { s.osc with slot := some (.newCredit p (some { seq := (s.peer p).sendSeq, grant := k }))
                             creditLast := true })) ∧
    (∀ p o, s.osc.slot = some (.creditRetry p) → (s.peer p).openCredit = some o →
      ∃ t, exec .windowStart s = .next t ∧ sends t (header p o.seq o.grant) ∧ t.peers = s.peers ∧
        t.osc = { s.osc with creditLast := true }) ∧
    (s.osc.slot = some .empty → ∃ t, exec .windowStart s = .next t ∧ sends t (List.replicate 7 0xFF) ∧
      t.peers = s.peers ∧ t.osc = s.osc)

/-- 07 R130: a cell of its header, payload or frame check that the claimant released and that reads LOW: it has
COLLIDED there and drives no cell after it. A cell that it drives itself is not compared. -/
def Obligations.CollisionStopsTheClaimant : Prop :=
  ∀ (s : State) (x : Tx) (n : Nat), s.InOwnWindow x → x.collidedAt = none → n < 8 * x.bytes.length →
    (s.rdc.stage = .header ∧ n < 56) ∨ (s.rdc.stage = .body ∧ 56 ≤ n) →
    (x.bit n = true → ∃ t, exec (.collision n) s = .next t ∧
      t.fen = { s.fen with tx := some { x with collidedAt := some n }, undo := none } ∧
      t.ownCollided = true ∧ t.lif.wdatDrive = false ∧ t.lif.wdat = .low ∧ (∀ m, n < m → t.ownDrives m = false) ∧
      t.rdc = s.rdc ∧ s.SameTraffic t) ∧
    (x.bit n = false → exec (.collision n) s = .next s)

/-- 02 R33, R39, 07 R131, 06 R106: EMPTY is settled at the end of its header cells, the slot empties and no frame, entry
or queue changes. At that settlement and at the outcome of a frame the collision streak goes to 0, or up by 1 where the
window collided, and the third in a row takes the station to CONFLICT. 03 R48: the own window's cells as read fill the
staging buffer, and without a collision fix no state. -/
def Obligations.EmptySettlementAndTheStreak : Prop :=
  ∀ (s : State) (x : Tx) (y : Transmission), s.InOwnWindow x → s.osc.slot = some y →
    let streak := fun (t : State) (stage : Stage) =>
      (x.collidedAt = none → t.rdc = { s.rdc with stage := stage, streak := 0 }) ∧
      (x.collidedAt ≠ none → s.rdc.streak + 1 < 3 →
        t.rdc = { s.rdc with stage := stage, streak := s.rdc.streak + 1 }) ∧
      (x.collidedAt ≠ none → 3 ≤ s.rdc.streak + 1 → t.OutOfRound .conflict ∧ t.lpt.latched.line = true)
    (y = .empty → (x.collidedAt = none ∧ s.rdc.stage = .header) ∨ (x.collidedAt ≠ none ∧ s.rdc.stage = .mark) →
      ∃ t, exec .emptySettlement s = .next t ∧ streak t .mark ∧ t.osc = { s.osc with slot := none } ∧
        t.peers = s.peers ∧ t.fpl = s.fpl ∧ t.lif.wdatDrive = false ∧ s.SameElsewhere t ∧
        (x.collidedAt = none →
          t.fen = { s.fen with staging := { s.fen.staging with header := x.headerOnLine }, undo := none })) ∧
    (y ≠ .empty → s.rdc.stage = .body ∨ s.rdc.stage = .judged → ∀ a b,
      ∃ t, exec (.outcome a b) s = .next t ∧ streak t .answered ∧ t.osc.slot = none ∧ s.SameElsewhere t ∧
        (x.collidedAt = none → s.rdc.stage = .body →
          t.fen = { s.fen with staging := { s.fen.staging with payload := x.payload } }))


/-! ## Windows as they are read -/

/-- 07 R122 to R124, 11 Tables 11-1, 11-2: a reader's header state is GOOD, with given fields, exactly for the bytes that
a sender of those fields sends, when the fields are legal; it is EMPTY exactly for seven bytes of 0xFF. -/
def Obligations.HeaderRoundTrip : Prop :=
  (∀ h : HeaderFields, legalFields h = true ↔ h.grant ≤ 4 ∧ h.length ≤ 56 ∧
    (h.kind = .message → h.dest ≠ h.source) ∧ (h.kind = .credit → h.dest ≠ h.source ∧ h.length = 0) ∧
    (h.kind = .notice → h.dest = 0 ∧ h.seq = 0 ∧ h.grant = 0)) ∧
  (∀ (bytes : List Byte) (h : HeaderFields),
    readHeader bytes = (.good, some h) ↔ legalFields h = true ∧ bytes = encodeHeader h) ∧
  (∀ bytes : List Byte, readHeader bytes = (.empty, none) ↔ bytes = List.replicate 7 0xFF) ∧
  ∀ bytes : List Byte, (readHeader bytes).1 = .bad ↔ bytes ≠ List.replicate 7 0xFF ∧
    ∀ h, legalFields h = true → bytes ≠ encodeHeader h

/-- 07 R124, R132, 03 R48 to R50: at the last header cell a reader fixes the header state from the bytes read. A GOOD
header from another source than the window's owner is a sync loss; a BAD one makes a judging station's decision. That it
is one also in the own window of a collided EMPTY, where the streak's count (07 R131) falls at the same cell, is the
model's choice (log 42). -/
def Obligations.HeaderEndFixesTheState : Prop :=
  ∀ (s : State) (bytes : List Byte) (owner : Pos), s.resetAsserted = false → s.readsLine = true →
    s.rdc.stage = .header → s.windowOwner = some owner → s.ownWindow = false ∨ s.ownCollided = true →
    let read := s.headerRead bytes
    let fixes := fun (state : HeaderState) (fields : Option HeaderFields) (decision : Option Decision) =>
      ∃ t, exec (.headerEnd bytes) s = .next t ∧
        t.fen = { s.fen with
          staging := { s.fen.staging with
            header := read, headerState := state, fields := fields
            checkState := if state = .good then some .arriving else none }
          decision := decision, undo := none } ∧
        t.rdc = { s.rdc with stage := .mark } ∧ s.SameTraffic t
    (s.ownWindow = false → read = (List.range 7).map fun i => bytes.getD i 0xFF) ∧
    (read = List.replicate 7 0xFF → fixes .empty none none) ∧
    (∀ h, legalFields h = true → read = encodeHeader h → h.source = owner → fixes .good (some h) none) ∧
    (∀ h, legalFields h = true → read = encodeHeader h → h.source ≠ owner →
      ∃ t, exec (.headerEnd bytes) s = .next t ∧ t.OutOfRound .listening ∧ t.lif.idle = 0 ∧
        t.lpt.latched.line = true ∧ s.SameElsewhere t) ∧
    (read ≠ List.replicate 7 0xFF → (∀ h, legalFields h = true → read ≠ encodeHeader h) →
      fixes .bad none (if s.drivesLine = true ∧ s.ownWindow = false then some .damagedBoth else none))

/-- 07 R127, R128: the window is sized at the mark cell. Stretched, it is 523 cells; else 56 after EMPTY and 8L + 75
after a GOOD or an own header. A MEMBER that read BAD reads its own mark; an OBSERVING station that read BAD and no mark
has lost sync. Where the next window has begun after an EMPTY and no mark is read, what was done stands. 03 R48: a
claimant that has not collided has its header bytes as read in the staging buffer, with no header state fixed (log 44).
08 R140: WDAT is sampled at the cell's rise. 07 R130: a claimant that released the cell, its cell 56 or after an unmarked
EMPTY its cell 0, has collided there where it reads LOW; given before the next window has begun, the sample of that cell
is not compared (log 21). 08 R147: a low phase above 256 cell-times is a stuck line, and the station
in FAULT, before that rise. -/
def Obligations.MarkCellSizesTheWindow : Prop :=
  ∀ (s : State) (n : Nat) (others : Level), s.resetAsserted = false → s.readsLine = true →
    let cell : Instr := .markCell { lowPhase := n, others := others }
    let sampled := fun (t : State) (drives : Bool) => t.lif.wclk = .high ∧ t.lif.wdatDrive = drives ∧
      t.lif.wdat = if drives then .low else others
    let sizes := fun (size : Nat) (stage : Stage) => ∃ t, exec cell s = .next t ∧ sampled t (s.ownDrives 56) ∧
      t.fen = { s.fen with size := some size } ∧ t.rdc = { s.rdc with stage := stage } ∧ s.SameTraffic t
    (n ≤ 256 → s.fen.undo = none → s.rdc.stage = .mark → s.ownWindow = false → s.fen.staging.headerState = .empty →
      (2 ≤ n → sizes 523 .judged) ∧ (n < 2 → sizes 56 .answered)) ∧
    (∀ x, n ≤ 256 → s.fen.undo = none → s.InOwnWindow x → x.collidedAt = none → x.isEmpty = true → s.rdc.stage = .mark →
      s.osc.slot = none → s.fen.staging.headerState ≠ .bad →
      (2 ≤ n → sizes 523 .judged) ∧ (n < 2 → sizes 56 .answered)) ∧
    (∀ x, n ≤ 256 → s.fen.undo = none → s.InOwnWindow x → x.collidedAt = none → s.rdc.stage = .header →
      s.osc.slot ≠ some .empty →
      ∃ t, exec cell s = .next t ∧ sampled t (!x.bit 56) ∧
        t.fen = { s.fen with
          size := some (if 2 ≤ n then 523 else 8 * x.payload.length + 75)
          staging := { s.fen.staging with header := x.headerOnLine }
          tx := some (if others = .low ∧ x.bit 56 = true ∧ 56 < 8 * x.bytes.length then
            { x with collidedAt := some 56 } else x) } ∧
        t.rdc = { s.rdc with stage := .body } ∧ s.SameTraffic t) ∧
    (∀ h, n ≤ 256 → s.fen.undo = none → s.rdc.stage = .mark → s.fen.staging.headerState = .good →
      s.fen.staging.fields = some h →
      s.ownWindow = false ∨ (s.ownCollided = true ∧ s.osc.slot ≠ some .empty) →
      (2 ≤ n → sizes 523 .body) ∧ (n < 2 → sizes (8 * h.length + 75) .body)) ∧
    (n ≤ 256 → s.fen.undo = none → s.rdc.stage = .mark → s.fen.staging.headerState = .bad → s.fen.staging.fields = none →
      s.ownWindow = false ∨ (s.ownCollided = true ∧ s.osc.slot ≠ some .empty) →
      (s.rdc.participation = .member ∨ 2 ≤ n → sizes 523 .judged) ∧
      (s.rdc.participation = .observing → n < 2 → ∃ t, exec cell s = .next t ∧ t.OutOfRound .listening ∧
        t.lif.idle = 0 ∧ t.lpt.latched.line = true ∧ s.SameElsewhere t ∧
        (s.ownDrives 56 = false → sampled t false))) ∧
    (s.fen.undo ≠ none → s.rdc.stage ≠ .mark → n < 2 → ∃ t, exec cell s = .next t ∧
      sampled t s.lif.wdatDrive ∧ t.rdc = s.rdc ∧ s.SameTraffic t ∧
      let collides : Tx → Prop := fun x => s.InOwnWindow x ∧ s.rdc.stage = .header ∧ x.collidedAt = none ∧
        others = .low ∧ x.bit 0 = true ∧ x.bytes ≠ []
      (∀ x, collides x → t.fen = { s.fen with undo := none, tx := some { x with collidedAt := some 0 } }) ∧
      ((∀ x, ¬ collides x) → t.fen = { s.fen with undo := none })) ∧
    (256 < n → s.fen.undo ≠ none ∨ (s.rdc.stage = .mark ∧ s.ownWindow = false) ∨
        (∃ x, s.InOwnWindow x ∧ x.collidedAt = none ∧ s.rdc.stage = .header ∧ s.osc.slot ≠ some .empty) →
      ∃ t, exec cell s = .next t ∧ t.OutOfRound .fault ∧ t.lif.idle = 0 ∧ t.lif.clockLow = 0 ∧ sampled t false ∧
        s.SameElsewhere t ∧ t.lpt = { s.lpt with latched := { s.lpt.latched with line := true } })

/-- 07 R128: a mark read in the cell after an EMPTY header undoes every window-start act, or the CARRY decision, taken
at that cell's fall: entries, frames, queues, slot and staging buffer are as at the end of the header, and the window
goes on to 523 cells. In states where an open sequence is the peer's send sequence and stands once. -/
def Obligations.MarkUndoesTheWindowStart : Prop :=
  ∀ (s a b t : State) (n : Nat) (others : Level), s.resetAsserted = false → s.windowOver = true → s.endedEmpty = true → s.Placed →
    (∀ p o, s.osc.slot ≠ some (.newCredit p (some o))) →
    (∀ f q c p o, s.frame f = .sending q c → q.peer = some p → q.openSeq = some o →
      (s.peer p).openCredit = none ∧ (s.peer p).sendSeq = o.seq) →
    exec .windowEnd s = .next a → (exec .windowStart a = .next b ∨ exec .carryDrive a = .next b) →
    exec (.markCell { lowPhase := n, others := others }) b = .next t → 2 ≤ n → n ≤ 256 →
    t.lif.wdatDrive = b.lif.wdatDrive ∧ t.lif.wdat = (if b.lif.wdatDrive then .low else others) ∧
    t.peers = s.peers ∧ t.fpl = s.fpl ∧ t.osc = s.osc ∧ t.lpt = s.lpt ∧ t.ibu = s.ibu ∧ t.wku = s.wku ∧
    t.fen = { s.fen with size := some 523, decision := none, answerA := false, answerB := false, undo := none } ∧
    t.rdc = { s.rdc with stage := .judged }

/-- 03 R52 test 4, R53, R58, 01 R15, 04 R71: a MESSAGE addressed here, from a PRESENT peer with a credit and with a new
sequence, is stored and answered ACCEPT; spare does not change. While the station dozes the Wake Unit sees the frame. -/
def Obligations.MessageStored : Prop :=
  ∀ (s : State) (h : HeaderFields) (payload : List Byte) (check : BitVec 16), s.AtFrameCheck h →
    s.drivesLine = true → s.checkPasses h payload check → h.kind = .message → h.dest = s.own → h.source ≠ s.own →
    (s.peer h.source).present = true → (s.peer h.source).lastAccepted ≠ some h.seq →
    1 ≤ (s.peer h.source).granted → s.fpl.freeList ≠ [] →
    let e := s.peer h.source
    ∃ t g, exec (.frameCheckEnd payload check) s = .next t ∧ s.Stored t g h payload ∧
      t.peers = s.peers.set h.source { e with
        granted := e.granted - 1, lastAccepted := some h.seq, held := min (e.held + h.grant) s.c0 } ∧
      t.lpt = { s.lpt with latched := { s.lpt.latched with
        excess := s.lpt.latched.excess || decide (s.c0 < e.held + h.grant) } } ∧
      t.wku = (s.presentToWake h).wku ∧ t.freeCount + 1 = s.freeCount ∧ t.reserve + 1 = s.reserve ∧ t.spare = s.spare ∧
      t.fen.decision = some .accept ∧ t.rdc = { s.rdc with stage := .judged } ∧ t.osc = s.osc

/-- 03 R49 to R52, R54, R55: a MESSAGE that is a duplicate is answered ACCEPT, one from an ABSENT peer or without a
credit REFUSE, one addressed elsewhere not at all; a failed frame check DAMAGED; an OBSERVING station judges nothing.
None of these changes the pool or an entry. 03 R48, R49, 07 R130: in its own window the station makes no decision,
collided or not: a collided claimant that read a GOOD header fixes the check state, any other only reads the bytes; one
that had not collided has collided at the first cell of its payload and frame check that it released and that reads LOW
(08 R140), if there is one. That FRAME_CHECK_END is the command that fills the buffer and compares there is the model's
choice (log 44). -/
def Obligations.WindowsJudgedWithoutEffect : Prop :=
  (∀ (s : State) (h : HeaderFields) (payload : List Byte) (check : BitVec 16), s.AtFrameCheck h →
    let e := s.peer h.source
    let decides := fun (d : Option Decision) => ∃ t, exec (.frameCheckEnd payload check) s = .next t ∧
      t.fen.decision = d ∧ t.rdc = { s.rdc with stage := .judged } ∧ s.SameTraffic t
    (s.drivesLine = false → decides none) ∧
    (s.drivesLine = true → h.kind ≠ .notice → h.dest ≠ s.own → decides (some .silent)) ∧
    (s.drivesLine = true → h.kind ≠ .notice → h.dest = s.own → ¬ s.checkPasses h payload check →
      decides (some .damagedBoth)) ∧
    (s.drivesLine = true → h.kind = .notice → ¬ s.checkPasses h payload check → decides (some .damagedNotice)) ∧
    (s.drivesLine = true → h.kind = .message → h.dest = s.own → s.checkPasses h payload check →
      (e.present = false → decides (some .refuse)) ∧
      (e.present = true → e.lastAccepted = some h.seq → decides (some .accept)) ∧
      (e.present = true → e.lastAccepted ≠ some h.seq → e.granted = 0 → decides (some .refuse)))) ∧
  ∀ (s : State) (x : Tx) (payload : List Byte) (check : BitVec 16), s.InOwnWindow x → s.rdc.stage = .body →
    let reads := fun (fen : Fen) => ∃ t, exec (.frameCheckEnd payload check) s = .next t ∧ t.fen = fen ∧
      t.rdc = { s.rdc with stage := .judged } ∧ s.SameTraffic t
    let given : List Byte := (List.range x.payload.length).map fun i => payload.getD i 0xFF
    let filled := fun (y : Tx) => { s.fen with
      tx := some y, staging := { s.fen.staging with payload := wiredAnd given y.payloadOnLine } }
    let line : List Byte := List.replicate 7 (0xFF : Byte) ++ given ++ [(check >>> 8).setWidth 8, check.setWidth 8]
    let collides : Nat → Prop := fun n => n < 8 * x.bytes.length ∧ x.bit n = true ∧
      (line.getD (n / 8) 0xFF).getLsbD (7 - n % 8) = false
    (x.collidedAt ≠ none → s.fen.staging.fields = none → reads (filled x)) ∧
    (x.collidedAt = none → (∀ n, ¬ collides n) → reads (filled x)) ∧
    (∀ n, x.collidedAt = none → collides n → (∀ m, m < n → ¬ collides m) →
      reads (filled { x with collidedAt := some n })) ∧
    ∀ h, x.collidedAt ≠ none → s.fen.staging.fields = some h →
      (s.checkPasses h payload check → reads { s.fen with
        staging := { s.fen.staging with
          payload := (List.range h.length).map fun i => payload.getD i 0xFF, checkState := some .good }
        decision := none }) ∧
      (¬ s.checkPasses h payload check → reads { s.fen with
        staging := { s.fen.staging with
          payload := (List.range h.length).map fun i => payload.getD i 0xFF, checkState := some .failed }
        decision := none })

/-- 03 R56, 04 R71: a CREDIT frame addressed here: from an ABSENT peer REFUSE; a duplicate ACCEPT with no effect;
otherwise ACCEPT, with its grant added to held, clamped at C0, and its sequence the last accepted. 03 R57, R58, 01 R15:
a NOTICE from an ABSENT peer, or with spare 0, REFUSE with no effect; any other is stored and answered ACCEPT. -/
def Obligations.CreditAndNoticeJudged : Prop :=
  ∀ (s : State) (h : HeaderFields) (payload : List Byte) (check : BitVec 16), s.AtFrameCheck h →
    s.drivesLine = true → s.checkPasses h payload check → h.source ≠ s.own →
    let e := s.peer h.source
    ∃ t, exec (.frameCheckEnd payload check) s = .next t ∧ t.rdc = { s.rdc with stage := .judged } ∧ t.osc = s.osc ∧
      (h.kind = .credit → h.dest = s.own →
        (e.present = false → t.fen.decision = some .refuse ∧ s.SameTraffic t) ∧
        (e.present = true → e.lastAccepted = some h.seq → t.fen.decision = some .accept ∧ s.SameTraffic t) ∧
        (e.present = true → e.lastAccepted ≠ some h.seq → t.fen.decision = some .accept ∧
          t.peers = s.peers.set h.source { e with
            lastAccepted := some h.seq, held := min (e.held + h.grant) s.c0 } ∧
          t.lpt = { s.lpt with latched := { s.lpt.latched with
            excess := s.lpt.latched.excess || decide (s.c0 < e.held + h.grant) } } ∧
          t.fpl = s.fpl ∧ s.SameElsewhere t)) ∧
      (h.kind = .notice → t.peers = s.peers ∧ t.lpt = s.lpt ∧
        (e.present = false ∨ s.spare = 0 → t.fen.decision = some .refuse ∧ s.SameTraffic t) ∧
        (e.present = true → 1 ≤ s.spare → t.fen.decision = some .accept ∧
          (∃ g, s.Stored t g h payload) ∧ t.freeCount + 1 = s.freeCount ∧ t.spare + 1 = s.spare ∧
          t.reserve = s.reserve ∧ t.wku = (s.presentToWake h).wku))


/-- 10 R167 to R169: the act that presents a stored frame to the Wake Unit. -/
def Obligations.WakeUnitCountsMatches : Prop :=
  ∀ (s : State) (h : HeaderFields),
    (s.wku.doze = false → s.presentToWake h = s) ∧
    (s.wku.doze = true →
      let required := fun (n : Fin 3) => (s.wakeEntry n).settings0.toNat % 16
      let kind := fun (n : Fin 3) => (s.wakeEntry n).settings0.toNat / 16 % 4
      let matched : Fin 3 → Prop := fun n =>
        (s.wakeEntry n).settings0.getLsbD 7 = true ∧ required n ≠ 0 ∧
        ((s.wakeEntry n).settings1.getLsbD 4 = true ∨ (s.wakeEntry n).settings1.toNat % 16 = h.source.val) ∧
        (kind n = 2 ∨ (kind n = 0 ∧ h.kind = .message) ∨ (kind n = 1 ∧ h.kind = .notice)) ∧
        ((s.wakeEntry n).settings0.getLsbD 6 = true → h.cls = .urgent) ∧
        (∀ i, (s.wakeEntry n).tagMask.getLsbD i = true → h.tag.getLsbD i = (s.wakeEntry n).tagValue.getLsbD i)
      let t := s.presentToWake h
      (∀ n, (matched n → (s.wakeEntry n).counter < required n →
          t.wakeEntry n = { s.wakeEntry n with counter := (s.wakeEntry n).counter + 1 }) ∧
        (¬ matched n ∨ required n ≤ (s.wakeEntry n).counter → t.wakeEntry n = s.wakeEntry n)) ∧
      (t.wku.wakeLatch = true ↔ s.wku.wakeLatch = true ∨ ∃ n, matched n ∧ required n ≤ (s.wakeEntry n).counter + 1) ∧
      t = { s with wku := { s.wku with entries := t.wku.entries, wakeLatch := t.wku.wakeLatch } })

/-- 07 R134, 06 R115, 03 R48: a MEMBER drives the answer cells that its decision names, to the fall of cell B (08 R140;
log 43); at the end of a window the window
index advances, and the next claimant's window starts the staging buffer, or the CARRY cell is next. A window ends so
after an EMPTY header too, read or sent, before its mark cell is read (07 R126, R128; log 21): what a mark would bring
back is then kept. WDAT is released by then, but for a drive of the last cell, answer cell B, where the own window or
the CARRY cell is next, whose command sets the drive at the same fall (08 R140; log 49). -/
def Obligations.AnswerCellsAndWindowEnd : Prop :=
  ∀ s : State, s.resetAsserted = false →
    (∀ d, s.rdc.participation = .member → s.rdc.stage = .judged → s.ownWindow = false → s.fen.decision = some d →
      ∃ t, exec .answerDrive s = .next t ∧
        (t.fen.answerA = true ↔ d = .accept ∨ d = .damagedBoth) ∧
        (t.fen.answerB = true ↔ d = .refuse ∨ d = .damagedBoth ∨ d = .damagedNotice) ∧
        t.lif.wclk = .low ∧ t.lif.wdatDrive = t.fen.answerB ∧ t.fen = { s.fen with answerA := t.fen.answerA, answerB := t.fen.answerB } ∧
        t.rdc = { s.rdc with stage := .answered } ∧ s.SameTraffic t) ∧
    (∀ i, s.readsLine = true → s.rdc.window = some i →
      (s.rdc.stage = .answered ∨
        (s.rdc.stage = .judged ∧ s.ownWindow = false ∧ (s.fen.decision = none ∨ s.fen.decision = some .silent)) ∨
        ((s.rdc.stage = .judged ∨ s.rdc.stage = .body) ∧ s.ownWindow = true ∧ s.osc.slot = none)) →
      ∃ t, exec .windowEnd s = .next t ∧ t.fen.tx = none ∧ t.fen.size = none ∧ t.fen.decision = none ∧
        t.fen.answerA = false ∧ t.fen.answerB = false ∧ t.lif.wclk = .low ∧ (t.lif.wdatDrive = true ↔ s.lif.wdatDrive = true ∧ s.fen.answerB = true ∧
          (s.rdc.claimants[i + 1]? = some s.own ∨ s.rdc.claimants[i + 1]? = none)) ∧
        s.SameTraffic t ∧
        (∀ p, s.rdc.claimants[i + 1]? = some p →
          t.rdc = { s.rdc with window := some (i + 1), stage := .header } ∧
          t.fen.staging = { owner := p, header := [], headerState := .arriving, fields := none, payload := []
                            checkState := some .arriving, valid := true }) ∧
        (s.rdc.claimants[i + 1]? = none → t.rdc = { s.rdc with window := none, stage := .carry } ∧
          t.fen.staging = s.fen.staging)) ∧
    ∀ i, s.readsLine = true → s.rdc.window = some i → s.rdc.stage = .mark →
      (s.ownWindow = false ∧ s.fen.staging.headerState = .empty) ∨
        (s.osc.slot = none ∧ ∃ x, s.InOwnWindow x ∧ x.collidedAt = none ∧ x.isEmpty = true) →
      ∃ t, exec .windowEnd s = .next t ∧ t.fen.tx = none ∧ t.fen.size = none ∧ t.fen.decision = none ∧
        t.fen.undo = some { window := some i, staging := s.fen.staging, tx := s.fen.tx, start := none } ∧
        t.lif.wclk = .low ∧ (t.lif.wdatDrive = true ↔ s.lif.wdatDrive = true ∧ s.fen.answerB = true ∧
          (s.rdc.claimants[i + 1]? = some s.own ∨ s.rdc.claimants[i + 1]? = none)) ∧ s.SameTraffic t ∧
        (∀ p, s.rdc.claimants[i + 1]? = some p →
          t.rdc = { s.rdc with window := some (i + 1), stage := .header } ∧
          t.fen.staging = { owner := p, header := [], headerState := .arriving, fields := none, payload := []
                            checkState := some .arriving, valid := true }) ∧
        (s.rdc.claimants[i + 1]? = none → t.rdc = { s.rdc with window := none, stage := .carry } ∧
          t.fen.staging = s.fen.staging)

/-! ## Outcomes -/

/-- 02 R33 to R35, 04 R68, R70, R80: an ACCEPTED or REFUSED answer to a MESSAGE is final: the frame completes with its
attempts, held falls by 1 or to 0, the frozen grant passes from pending to granted or back to owed, the send sequence
advances. -/
def Obligations.FinalAnswerToAMessage : Prop :=
  ∀ (s : State) (x : Tx) (f : FrameNo) (q : Posted) (c : Bool) (p : Pos) (o : OpenSeq), s.InOwnWindow x →
    x.collidedAt = none → s.rdc.stage = .body ∨ s.rdc.stage = .judged → s.osc.slot = some (.frame f) →
    s.frame f = .sending q c → q.peer = some p → p ≠ s.own → q.openSeq = some o →
    let e := s.peer p
    let completes := fun (t : State) (outcome : Completion) =>
      t.fpl = { s.fpl with frames := s.fpl.frames.set f (.done (q.doneRecord outcome q.attempts)) } ∧
      t.osc = { s.osc with slot := none, completion := s.osc.completion ++ [f] } ∧
      t.rdc = { s.rdc with stage := .answered, streak := 0 } ∧ t.lpt = s.lpt ∧ s.SameElsewhere t
    (∃ t, exec (.outcome .low .high) s = .next t ∧ completes t .delivered ∧
      t.peers = s.peers.set p { e with
        held := e.held - 1, pending := e.pending - o.grant, granted := e.granted + o.grant
        sendSeq := e.sendSeq + 1 }) ∧
    ∃ t, exec (.outcome .high .low) s = .next t ∧ completes t .refused ∧
      t.peers = s.peers.set p { e with
        held := 0, pending := e.pending - o.grant, owed := e.owed + o.grant, sendSeq := e.sendSeq + 1 }

/-- 02 R36, R37, R43: a DAMAGED or SILENT answer to a MESSAGE, or a collision, raises its attempts. Below 4 the frame is
QUEUED again with its record, or completes CANCELLED where a cancel is requested; at 4 it completes PEER_LOST and its
peer is lost, with the other frames to it behind. -/
def Obligations.FailedAttemptOfAMessage : Prop :=
  ∀ (s : State) (x : Tx) (f : FrameNo) (q : Posted) (c : Bool) (p : Pos) (a b : Level), s.InOwnWindow x →
    x.collidedAt ≠ none ∨ a = b → s.rdc.stage = .body ∨ s.rdc.stage = .judged →
    s.osc.slot = some (.frame f) → s.frame f = .sending q c → q.peer = some p → p ≠ s.own → s.Placed →
    let n := q.attempts + 1
    let lost := fun (queue : List FrameNo) => queue.filter fun g => (s.frame g).queuedTo p
    (n < 4 → c = false → ∃ t, exec (.outcome a b) s = .next t ∧ t.peers = s.peers ∧
      t.fpl = { s.fpl with frames := s.fpl.frames.set f (.queued { q with attempts := n }) } ∧
      f ∈ t.queueOf q.cls ∧ (∀ k, (t.queueOf k).filter (fun g => g ≠ f) = s.queueOf k) ∧
      t.osc.completion = s.osc.completion ∧ t.osc.slot = none) ∧
    (n < 4 → c = true → ∃ t, exec (.outcome a b) s = .next t ∧ t.peers = s.peersAfterCancel q n ∧
      t.fpl = { s.fpl with frames := s.fpl.frames.set f (.done (q.doneRecord .cancelled n)) } ∧
      t.osc = { s.osc with slot := none, completion := s.osc.completion ++ [f] }) ∧
    (4 ≤ n → ∃ t, exec (.outcome a b) s = .next t ∧ t.peers = s.peers.set p PeerEntry.atReset ∧
      t.frame f = .done (q.doneRecord .peerLost n) ∧ t.lpt.latched.peer = true ∧
      (∀ g r, s.frame g = .queued r → r.peer = some p → t.frame g = .done (r.doneRecord .peerLost r.attempts)) ∧
      t.osc = { s.osc with
        slot := none, completion := s.osc.completion ++ [f] ++ lost s.osc.urgent ++ lost s.osc.routine
        urgent := s.osc.urgent.filter (fun g => !(s.frame g).queuedTo p)
        routine := s.osc.routine.filter (fun g => !(s.frame g).queuedTo p) })

/-- 02 R38, 07 R135: a NOTICE completes after one window with the outcome that the answer cells read, or COLLIDED with
its attempts raised; no entry changes. -/
def Obligations.OutcomeOfANotice : Prop :=
  ∀ (s : State) (x : Tx) (f : FrameNo) (q : Posted) (c : Bool), s.InOwnWindow x →
    s.rdc.stage = .body ∨ s.rdc.stage = .judged → s.osc.slot = some (.frame f) → s.frame f = .sending q c →
    q.peer = none →
    let completes := fun (a b : Level) (outcome : Completion) (attempts : Nat) => ∃ t,
      exec (.outcome a b) s = .next t ∧ t.peers = s.peers ∧
      t.fpl = { s.fpl with frames := s.fpl.frames.set f (.done (q.doneRecord outcome attempts)) } ∧
      t.osc = { s.osc with slot := none, completion := s.osc.completion ++ [f] }
    (x.collidedAt = none → completes .low .high .allTaken q.attempts ∧ completes .low .low .someTaken q.attempts ∧
      completes .high .low .noneTaken q.attempts ∧ completes .high .high .unheard q.attempts) ∧
    (x.collidedAt ≠ none → ∀ a b, completes a b .collided (q.attempts + 1))

/-- 04 R68, R76, R79: the answer to a new credit frame, and to a retry of an open credit frame: final, or the open
credit frame formed, or its attempts raised, or its peer lost. No frame completes but by that loss. -/
def Obligations.AnswerToACreditFrame : Prop :=
  ∀ (s : State) (x : Tx) (p : Pos) (a b : Level), s.InOwnWindow x →
    s.rdc.stage = .body ∨ s.rdc.stage = .judged → p ≠ s.own →
    let e := s.peer p
    let accepted : Prop := x.collidedAt = none ∧ a = .low ∧ b = .high
    let refused : Prop := x.collidedAt = none ∧ a = .high ∧ b = .low
    let failed : Prop := x.collidedAt ≠ none ∨ a = b
    let becomes := fun (e' : PeerEntry) => ∃ t, exec (.outcome a b) s = .next t ∧
      t.peers = s.peers.set p e' ∧ t.fpl = s.fpl ∧ t.osc = { s.osc with slot := none }
    (∀ o, s.osc.slot = some (.newCredit p (some o)) →
      (accepted → becomes { e with
        pending := e.pending - o.grant, granted := e.granted + o.grant, sendSeq := e.sendSeq + 1 }) ∧
      (refused → becomes { e with
        pending := e.pending - o.grant, owed := e.owed + o.grant, sendSeq := e.sendSeq + 1 }) ∧
      (failed → becomes { e with openCredit := some { seq := o.seq, grant := o.grant, attempts := 1 } })) ∧
    (∀ o, s.osc.slot = some (.creditRetry p) → e.openCredit = some o →
      (accepted → becomes { e with
        pending := e.pending - o.grant, granted := e.granted + o.grant, sendSeq := e.sendSeq + 1
        openCredit := none }) ∧
      (refused → becomes { e with
        pending := e.pending - o.grant, owed := e.owed + o.grant, sendSeq := e.sendSeq + 1, openCredit := none }) ∧
      (failed → o.attempts + 1 < 4 → becomes { e with openCredit := some { o with attempts := o.attempts + 1 } }) ∧
      (failed → 4 ≤ o.attempts + 1 → ∃ t, exec (.outcome a b) s = .next t ∧
        t.peers = s.peers.set p PeerEntry.atReset ∧ t.lpt.latched.peer = true ∧ t.osc.slot = none))

/-! ## Laws that every step keeps -/

/-- 01 R1, 05 R83: frame memory keeps its canonical form within its 3072 bytes, and the own position's entry its reset
values. -/
def Obligations.MemoryAndOwnEntryKept : Prop :=
  ∀ s t : State, step s = .next t → (s.MemoryOk → t.MemoryOk) ∧ (s.OwnEntryReset → t.OwnEntryReset)

/-- 01 R3, 02 R23: every frame stays in exactly the place that its state gives it, and the outbound queues stay in post
order, as the model's post numbers say it (log 9), with that of a frame that a mark could bring back (07 R128). -/
def Obligations.FramesStayInTheirPlaces : Prop :=
  ∀ s t : State, step s = .next t → (s.Placed → t.Placed) ∧ (s.QueuesInPostOrder → t.QueuesInPostOrder)

/-- 01 R7, R11, 04 R77 and the ranges of the counts: outbound-owned never exceeds 32, no attempts exceed 4, the counts of
the line, the round, the port and the Wake Unit and an entry's missed and held stay in their ranges. Owed, pending and
granted stay in theirs by `CreditKeptByEveryStepAndRun`. -/
def Obligations.LimitsKept : Prop :=
  ∀ s t : State, step s = .next t →
    (s.OutboundBounded → t.OutboundBounded) ∧ (s.AttemptsBounded → t.AttemptsBounded) ∧
    (s.CountsInRange → t.CountsInRange)

/-- 06 R101, R105, 00 section 5.1, 10 R165: a station out of the round drives nothing and keeps nothing of it, the wires
read as they are driven, and the Wake Unit rests while the doze flag is clear. That open seen is not set in the own OPEN,
nor out of the round, is the model's reading (logs 14, 25). -/
def Obligations.SilenceAndWiresKept : Prop :=
  ∀ s t : State, step s = .next t →
    (s.SilentOutOfRound → t.SilentOutOfRound) ∧ (s.WiresConsistent → t.WiresConsistent) ∧
    (s.WakeRests → t.WakeRests)

/-- 04 R65, 05 R82, 02 R24, 01 R6, by every step: from a state in which credit is conserved for every peer, frames are in
their places, entries tied to their state, open sequences single and covered by pending, the reserve covered by the free
list, the slot in its round and the kept window-start acts covered, every step leads to such a state; no peer then has
two open sequences, and owed, pending and granted are at most C0. And so in every run from a reset, whatever commands
come. -/
def Obligations.CreditKeptByEveryStepAndRun : Prop :=
  (∀ s t : State, step s = .next t → s.CreditKept →
    t.CreditKept ∧ ∀ p, t.OneOpenSequence p ∧
      (t.peer p).owed ≤ t.c0 ∧ (t.peer p).pending ≤ t.c0 ∧ (t.peer p).granted ≤ t.c0) ∧
  ∀ (cs : List (Option Instr)) (straps : Straps) (p : Pos),
    let t := (State.afterReset straps [] 0 .idle none []).feedAll cs
    t.ConservedAt p ∧ (t.peer p).Tied ∧ t.OneOpenSequence p ∧ t.ReserveCovered

/-- What the invariants rest on: the reset state meets each of them. -/
def Obligations.ResetMeetsTheInvariants : Prop :=
  ∀ (straps : Straps) (e : Nat),
    let t := State.afterReset straps [] e .idle none []
    t.MemoryOk ∧ t.OwnEntryReset ∧ t.Placed ∧ t.QueuesInPostOrder ∧ t.OutboundBounded ∧ t.AttemptsBounded ∧
    t.CountsInRange ∧ t.SilentOutOfRound ∧ t.WiresConsistent ∧ t.WakeRests ∧ t.ReserveCovered ∧ t.CreditKept ∧
    ∀ p, t.ConservedAt p ∧ (t.peer p).Tied ∧ t.OneOpenSequence p
end

