-- ==== Sys2Proof/Laws/State.lean ====
section
/-!
SUPPORT. One lemma per field of State per setter, and what each setter does to the readers of positions, entries and
records: no later proof unfolds a record update.
-/

namespace Sys2Proof.Machine

variable (s : State)


/-! ## withLif -/

@[simp] theorem withLif_resetAsserted (x : Lif) : (s.withLif x).resetAsserted = s.resetAsserted := rfl
@[simp] theorem withLif_lif (x : Lif) : (s.withLif x).lif = x := rfl
@[simp] theorem withLif_rdc (x : Lif) : (s.withLif x).rdc = s.rdc := rfl
@[simp] theorem withLif_fen (x : Lif) : (s.withLif x).fen = s.fen := rfl
@[simp] theorem withLif_peers (x : Lif) : (s.withLif x).peers = s.peers := rfl
@[simp] theorem withLif_fpl (x : Lif) : (s.withLif x).fpl = s.fpl := rfl
@[simp] theorem withLif_osc (x : Lif) : (s.withLif x).osc = s.osc := rfl
@[simp] theorem withLif_ibu (x : Lif) : (s.withLif x).ibu = s.ibu := rfl
@[simp] theorem withLif_lpt (x : Lif) : (s.withLif x).lpt = s.lpt := rfl
@[simp] theorem withLif_wku (x : Lif) : (s.withLif x).wku = s.wku := rfl
@[simp] theorem withLif_pending (x : Lif) : (s.withLif x).pending = s.pending := rfl
@[simp] theorem withLif_peer (x : Lif) (p : Pos) : (s.withLif x).peer p = s.peer p := rfl
@[simp] theorem withLif_frame (x : Lif) (f : FrameNo) : (s.withLif x).frame f = s.frame f := rfl
@[simp] theorem withLif_readsLine (x : Lif) : (s.withLif x).readsLine = s.readsLine := rfl
@[simp] theorem withLif_drivesLine (x : Lif) : (s.withLif x).drivesLine = s.drivesLine := rfl
@[simp] theorem withLif_isMember (x : Lif) : (s.withLif x).isMember = s.isMember := rfl

/-! ## withRdc -/

@[simp] theorem withRdc_resetAsserted (x : Rdc) : (s.withRdc x).resetAsserted = s.resetAsserted := rfl
@[simp] theorem withRdc_lif (x : Rdc) : (s.withRdc x).lif = s.lif := rfl
@[simp] theorem withRdc_rdc (x : Rdc) : (s.withRdc x).rdc = x := rfl
@[simp] theorem withRdc_fen (x : Rdc) : (s.withRdc x).fen = s.fen := rfl
@[simp] theorem withRdc_peers (x : Rdc) : (s.withRdc x).peers = s.peers := rfl
@[simp] theorem withRdc_fpl (x : Rdc) : (s.withRdc x).fpl = s.fpl := rfl
@[simp] theorem withRdc_osc (x : Rdc) : (s.withRdc x).osc = s.osc := rfl
@[simp] theorem withRdc_ibu (x : Rdc) : (s.withRdc x).ibu = s.ibu := rfl
@[simp] theorem withRdc_lpt (x : Rdc) : (s.withRdc x).lpt = s.lpt := rfl
@[simp] theorem withRdc_wku (x : Rdc) : (s.withRdc x).wku = s.wku := rfl
@[simp] theorem withRdc_pending (x : Rdc) : (s.withRdc x).pending = s.pending := rfl
@[simp] theorem withRdc_own (x : Rdc) : (s.withRdc x).own = s.own := rfl
@[simp] theorem withRdc_c0 (x : Rdc) : (s.withRdc x).c0 = s.c0 := rfl
@[simp] theorem withRdc_peer (x : Rdc) (p : Pos) : (s.withRdc x).peer p = s.peer p := rfl
@[simp] theorem withRdc_frame (x : Rdc) (f : FrameNo) : (s.withRdc x).frame f = s.frame f := rfl

/-! ## withFen -/

@[simp] theorem withFen_resetAsserted (x : Fen) : (s.withFen x).resetAsserted = s.resetAsserted := rfl
@[simp] theorem withFen_lif (x : Fen) : (s.withFen x).lif = s.lif := rfl
@[simp] theorem withFen_rdc (x : Fen) : (s.withFen x).rdc = s.rdc := rfl
@[simp] theorem withFen_fen (x : Fen) : (s.withFen x).fen = x := rfl
@[simp] theorem withFen_peers (x : Fen) : (s.withFen x).peers = s.peers := rfl
@[simp] theorem withFen_fpl (x : Fen) : (s.withFen x).fpl = s.fpl := rfl
@[simp] theorem withFen_osc (x : Fen) : (s.withFen x).osc = s.osc := rfl
@[simp] theorem withFen_ibu (x : Fen) : (s.withFen x).ibu = s.ibu := rfl
@[simp] theorem withFen_lpt (x : Fen) : (s.withFen x).lpt = s.lpt := rfl
@[simp] theorem withFen_wku (x : Fen) : (s.withFen x).wku = s.wku := rfl
@[simp] theorem withFen_pending (x : Fen) : (s.withFen x).pending = s.pending := rfl
@[simp] theorem withFen_own (x : Fen) : (s.withFen x).own = s.own := rfl
@[simp] theorem withFen_c0 (x : Fen) : (s.withFen x).c0 = s.c0 := rfl
@[simp] theorem withFen_peer (x : Fen) (p : Pos) : (s.withFen x).peer p = s.peer p := rfl
@[simp] theorem withFen_frame (x : Fen) (f : FrameNo) : (s.withFen x).frame f = s.frame f := rfl
@[simp] theorem withFen_readsLine (x : Fen) : (s.withFen x).readsLine = s.readsLine := rfl
@[simp] theorem withFen_drivesLine (x : Fen) : (s.withFen x).drivesLine = s.drivesLine := rfl
@[simp] theorem withFen_isMember (x : Fen) : (s.withFen x).isMember = s.isMember := rfl

/-! ## withPeers -/

@[simp] theorem withPeers_resetAsserted (x : Vector PeerEntry 16) : (s.withPeers x).resetAsserted = s.resetAsserted := rfl
@[simp] theorem withPeers_lif (x : Vector PeerEntry 16) : (s.withPeers x).lif = s.lif := rfl
@[simp] theorem withPeers_rdc (x : Vector PeerEntry 16) : (s.withPeers x).rdc = s.rdc := rfl
@[simp] theorem withPeers_fen (x : Vector PeerEntry 16) : (s.withPeers x).fen = s.fen := rfl
@[simp] theorem withPeers_peers (x : Vector PeerEntry 16) : (s.withPeers x).peers = x := rfl
@[simp] theorem withPeers_fpl (x : Vector PeerEntry 16) : (s.withPeers x).fpl = s.fpl := rfl
@[simp] theorem withPeers_osc (x : Vector PeerEntry 16) : (s.withPeers x).osc = s.osc := rfl
@[simp] theorem withPeers_ibu (x : Vector PeerEntry 16) : (s.withPeers x).ibu = s.ibu := rfl
@[simp] theorem withPeers_lpt (x : Vector PeerEntry 16) : (s.withPeers x).lpt = s.lpt := rfl
@[simp] theorem withPeers_wku (x : Vector PeerEntry 16) : (s.withPeers x).wku = s.wku := rfl
@[simp] theorem withPeers_pending (x : Vector PeerEntry 16) : (s.withPeers x).pending = s.pending := rfl
@[simp] theorem withPeers_own (x : Vector PeerEntry 16) : (s.withPeers x).own = s.own := rfl
@[simp] theorem withPeers_c0 (x : Vector PeerEntry 16) : (s.withPeers x).c0 = s.c0 := rfl
@[simp] theorem withPeers_frame (x : Vector PeerEntry 16) (f : FrameNo) : (s.withPeers x).frame f = s.frame f := rfl
@[simp] theorem withPeers_readsLine (x : Vector PeerEntry 16) : (s.withPeers x).readsLine = s.readsLine := rfl
@[simp] theorem withPeers_drivesLine (x : Vector PeerEntry 16) : (s.withPeers x).drivesLine = s.drivesLine := rfl
@[simp] theorem withPeers_isMember (x : Vector PeerEntry 16) : (s.withPeers x).isMember = s.isMember := rfl

/-! ## withFpl -/

@[simp] theorem withFpl_resetAsserted (x : Fpl) : (s.withFpl x).resetAsserted = s.resetAsserted := rfl
@[simp] theorem withFpl_lif (x : Fpl) : (s.withFpl x).lif = s.lif := rfl
@[simp] theorem withFpl_rdc (x : Fpl) : (s.withFpl x).rdc = s.rdc := rfl
@[simp] theorem withFpl_fen (x : Fpl) : (s.withFpl x).fen = s.fen := rfl
@[simp] theorem withFpl_peers (x : Fpl) : (s.withFpl x).peers = s.peers := rfl
@[simp] theorem withFpl_fpl (x : Fpl) : (s.withFpl x).fpl = x := rfl
@[simp] theorem withFpl_osc (x : Fpl) : (s.withFpl x).osc = s.osc := rfl
@[simp] theorem withFpl_ibu (x : Fpl) : (s.withFpl x).ibu = s.ibu := rfl
@[simp] theorem withFpl_lpt (x : Fpl) : (s.withFpl x).lpt = s.lpt := rfl
@[simp] theorem withFpl_wku (x : Fpl) : (s.withFpl x).wku = s.wku := rfl
@[simp] theorem withFpl_pending (x : Fpl) : (s.withFpl x).pending = s.pending := rfl
@[simp] theorem withFpl_own (x : Fpl) : (s.withFpl x).own = s.own := rfl
@[simp] theorem withFpl_c0 (x : Fpl) : (s.withFpl x).c0 = s.c0 := rfl
@[simp] theorem withFpl_peer (x : Fpl) (p : Pos) : (s.withFpl x).peer p = s.peer p := rfl
@[simp] theorem withFpl_readsLine (x : Fpl) : (s.withFpl x).readsLine = s.readsLine := rfl
@[simp] theorem withFpl_drivesLine (x : Fpl) : (s.withFpl x).drivesLine = s.drivesLine := rfl
@[simp] theorem withFpl_isMember (x : Fpl) : (s.withFpl x).isMember = s.isMember := rfl

/-! ## withOsc -/

@[simp] theorem withOsc_resetAsserted (x : Osc) : (s.withOsc x).resetAsserted = s.resetAsserted := rfl
@[simp] theorem withOsc_lif (x : Osc) : (s.withOsc x).lif = s.lif := rfl
@[simp] theorem withOsc_rdc (x : Osc) : (s.withOsc x).rdc = s.rdc := rfl
@[simp] theorem withOsc_fen (x : Osc) : (s.withOsc x).fen = s.fen := rfl
@[simp] theorem withOsc_peers (x : Osc) : (s.withOsc x).peers = s.peers := rfl
@[simp] theorem withOsc_fpl (x : Osc) : (s.withOsc x).fpl = s.fpl := rfl
@[simp] theorem withOsc_osc (x : Osc) : (s.withOsc x).osc = x := rfl
@[simp] theorem withOsc_ibu (x : Osc) : (s.withOsc x).ibu = s.ibu := rfl
@[simp] theorem withOsc_lpt (x : Osc) : (s.withOsc x).lpt = s.lpt := rfl
@[simp] theorem withOsc_wku (x : Osc) : (s.withOsc x).wku = s.wku := rfl
@[simp] theorem withOsc_pending (x : Osc) : (s.withOsc x).pending = s.pending := rfl
@[simp] theorem withOsc_own (x : Osc) : (s.withOsc x).own = s.own := rfl
@[simp] theorem withOsc_c0 (x : Osc) : (s.withOsc x).c0 = s.c0 := rfl
@[simp] theorem withOsc_peer (x : Osc) (p : Pos) : (s.withOsc x).peer p = s.peer p := rfl
@[simp] theorem withOsc_frame (x : Osc) (f : FrameNo) : (s.withOsc x).frame f = s.frame f := rfl
@[simp] theorem withOsc_readsLine (x : Osc) : (s.withOsc x).readsLine = s.readsLine := rfl
@[simp] theorem withOsc_drivesLine (x : Osc) : (s.withOsc x).drivesLine = s.drivesLine := rfl
@[simp] theorem withOsc_isMember (x : Osc) : (s.withOsc x).isMember = s.isMember := rfl

/-! ## withIbu -/

@[simp] theorem withIbu_resetAsserted (x : Ibu) : (s.withIbu x).resetAsserted = s.resetAsserted := rfl
@[simp] theorem withIbu_lif (x : Ibu) : (s.withIbu x).lif = s.lif := rfl
@[simp] theorem withIbu_rdc (x : Ibu) : (s.withIbu x).rdc = s.rdc := rfl
@[simp] theorem withIbu_fen (x : Ibu) : (s.withIbu x).fen = s.fen := rfl
@[simp] theorem withIbu_peers (x : Ibu) : (s.withIbu x).peers = s.peers := rfl
@[simp] theorem withIbu_fpl (x : Ibu) : (s.withIbu x).fpl = s.fpl := rfl
@[simp] theorem withIbu_osc (x : Ibu) : (s.withIbu x).osc = s.osc := rfl
@[simp] theorem withIbu_ibu (x : Ibu) : (s.withIbu x).ibu = x := rfl
@[simp] theorem withIbu_lpt (x : Ibu) : (s.withIbu x).lpt = s.lpt := rfl
@[simp] theorem withIbu_wku (x : Ibu) : (s.withIbu x).wku = s.wku := rfl
@[simp] theorem withIbu_pending (x : Ibu) : (s.withIbu x).pending = s.pending := rfl
@[simp] theorem withIbu_own (x : Ibu) : (s.withIbu x).own = s.own := rfl
@[simp] theorem withIbu_c0 (x : Ibu) : (s.withIbu x).c0 = s.c0 := rfl
@[simp] theorem withIbu_peer (x : Ibu) (p : Pos) : (s.withIbu x).peer p = s.peer p := rfl
@[simp] theorem withIbu_frame (x : Ibu) (f : FrameNo) : (s.withIbu x).frame f = s.frame f := rfl
@[simp] theorem withIbu_readsLine (x : Ibu) : (s.withIbu x).readsLine = s.readsLine := rfl
@[simp] theorem withIbu_drivesLine (x : Ibu) : (s.withIbu x).drivesLine = s.drivesLine := rfl
@[simp] theorem withIbu_isMember (x : Ibu) : (s.withIbu x).isMember = s.isMember := rfl

/-! ## withLpt -/

@[simp] theorem withLpt_resetAsserted (x : Lpt) : (s.withLpt x).resetAsserted = s.resetAsserted := rfl
@[simp] theorem withLpt_lif (x : Lpt) : (s.withLpt x).lif = s.lif := rfl
@[simp] theorem withLpt_rdc (x : Lpt) : (s.withLpt x).rdc = s.rdc := rfl
@[simp] theorem withLpt_fen (x : Lpt) : (s.withLpt x).fen = s.fen := rfl
@[simp] theorem withLpt_peers (x : Lpt) : (s.withLpt x).peers = s.peers := rfl
@[simp] theorem withLpt_fpl (x : Lpt) : (s.withLpt x).fpl = s.fpl := rfl
@[simp] theorem withLpt_osc (x : Lpt) : (s.withLpt x).osc = s.osc := rfl
@[simp] theorem withLpt_ibu (x : Lpt) : (s.withLpt x).ibu = s.ibu := rfl
@[simp] theorem withLpt_lpt (x : Lpt) : (s.withLpt x).lpt = x := rfl
@[simp] theorem withLpt_wku (x : Lpt) : (s.withLpt x).wku = s.wku := rfl
@[simp] theorem withLpt_pending (x : Lpt) : (s.withLpt x).pending = s.pending := rfl
@[simp] theorem withLpt_own (x : Lpt) : (s.withLpt x).own = s.own := rfl
@[simp] theorem withLpt_c0 (x : Lpt) : (s.withLpt x).c0 = s.c0 := rfl
@[simp] theorem withLpt_peer (x : Lpt) (p : Pos) : (s.withLpt x).peer p = s.peer p := rfl
@[simp] theorem withLpt_frame (x : Lpt) (f : FrameNo) : (s.withLpt x).frame f = s.frame f := rfl
@[simp] theorem withLpt_readsLine (x : Lpt) : (s.withLpt x).readsLine = s.readsLine := rfl
@[simp] theorem withLpt_drivesLine (x : Lpt) : (s.withLpt x).drivesLine = s.drivesLine := rfl
@[simp] theorem withLpt_isMember (x : Lpt) : (s.withLpt x).isMember = s.isMember := rfl

/-! ## withWku -/

@[simp] theorem withWku_resetAsserted (x : Wku) : (s.withWku x).resetAsserted = s.resetAsserted := rfl
@[simp] theorem withWku_lif (x : Wku) : (s.withWku x).lif = s.lif := rfl
@[simp] theorem withWku_rdc (x : Wku) : (s.withWku x).rdc = s.rdc := rfl
@[simp] theorem withWku_fen (x : Wku) : (s.withWku x).fen = s.fen := rfl
@[simp] theorem withWku_peers (x : Wku) : (s.withWku x).peers = s.peers := rfl
@[simp] theorem withWku_fpl (x : Wku) : (s.withWku x).fpl = s.fpl := rfl
@[simp] theorem withWku_osc (x : Wku) : (s.withWku x).osc = s.osc := rfl
@[simp] theorem withWku_ibu (x : Wku) : (s.withWku x).ibu = s.ibu := rfl
@[simp] theorem withWku_lpt (x : Wku) : (s.withWku x).lpt = s.lpt := rfl
@[simp] theorem withWku_wku (x : Wku) : (s.withWku x).wku = x := rfl
@[simp] theorem withWku_pending (x : Wku) : (s.withWku x).pending = s.pending := rfl
@[simp] theorem withWku_own (x : Wku) : (s.withWku x).own = s.own := rfl
@[simp] theorem withWku_c0 (x : Wku) : (s.withWku x).c0 = s.c0 := rfl
@[simp] theorem withWku_peer (x : Wku) (p : Pos) : (s.withWku x).peer p = s.peer p := rfl
@[simp] theorem withWku_frame (x : Wku) (f : FrameNo) : (s.withWku x).frame f = s.frame f := rfl
@[simp] theorem withWku_readsLine (x : Wku) : (s.withWku x).readsLine = s.readsLine := rfl
@[simp] theorem withWku_drivesLine (x : Wku) : (s.withWku x).drivesLine = s.drivesLine := rfl
@[simp] theorem withWku_isMember (x : Wku) : (s.withWku x).isMember = s.isMember := rfl

end Sys2Proof.Machine
end

