-- ==== Sys2Proof/Laws/Ops.lean ====
section
/-!
SUPPORT. What each shared operation can change, said once: the state it answers is the one it got, but for the fields
named. Proofs over all commands cite these.
-/

namespace Sys2Proof.Laws

open Sys2Proof.Machine

/-! ## Outcomes -/

/-- The outcome of a line command is a next state, and it is the effect or no change. -/
theorem whenDue_next (s after : State) (due : Bool) :
    s.whenDue due after = .next after ∨ s.whenDue due after = .next s := by
  cases h : (!s.resetAsserted && due) <;> simp [State.whenDue, h]

theorem whenDue_due {s after : State} {due : Bool} (h : s.resetAsserted = false) (hd : due = true) :
    s.whenDue due after = .next after := by
  simp [State.whenDue, h, hd]

theorem whenDue_not_due {s after : State} {due : Bool} (hd : due = false) : s.whenDue due after = .next s := by
  simp [State.whenDue, hd]

/-! ## Entries and records -/

theorem peer_setPeer (s : State) (p q : Pos) (e : PeerEntry) :
    (s.setPeer p e).peer q = if p = s.own then s.peer q else if q = p then e else s.peer q := by
  by_cases h : p = s.own
  · simp [State.setPeer, h]
  · by_cases hq : q = p
    · subst hq
      simp [State.setPeer, h, State.peer, State.withPeers]
    · have hv : p.val ≠ q.val := fun hv => hq (Fin.ext hv.symm)
      simp [State.setPeer, h, hq, State.peer, State.withPeers, hv]

/-- Writing an entry changes the entries alone. -/
theorem setPeer_only (s : State) (p : Pos) (e : PeerEntry) :
    s.setPeer p e = { s with peers := (s.setPeer p e).peers } := by
  by_cases h : p = s.own <;> simp [State.setPeer, h, State.withPeers]

theorem updPeer_only (s : State) (p : Pos) (g : PeerEntry → PeerEntry) :
    s.updPeer p g = { s with peers := (s.updPeer p g).peers } := setPeer_only s p _

theorem frame_setFrame (s : State) (f g : FrameNo) (r : FrameRecord) :
    (s.setFrame f r).frame g = if g = f then r else s.frame g := by
  by_cases hg : g = f
  · subst hg
    simp [State.setFrame, State.frame, State.withFpl]
  · have hv : f.val ≠ g.val := fun hv => hg (Fin.ext hv.symm)
    simp [State.setFrame, State.frame, State.withFpl, hg, hv]

theorem frame_mapFrames (s : State) (g : FrameRecord → FrameRecord) (f : FrameNo) :
    (s.mapFrames g).frame f = g (s.frame f) := by
  simp [State.mapFrames, State.frame, State.withFpl]

/-! ## Misuses -/

/-- A misuse changes the misuse record and its raw flag alone. -/
theorem reportMisuse_only (s : State) (k : MisuseKind) (f : Option FrameNo) :
    s.reportMisuse k f = { s with lpt := { s.lpt with
      misuse := (s.reportMisuse k f).lpt.misuse, further := (s.reportMisuse k f).lpt.further
      latched := { s.lpt.latched with misuse := true } } } := by
  unfold State.reportMisuse
  split <;> rfl

/-! ## Queues and completion -/

/-- Completion changes one record and the completion queue. -/
theorem complete_only (s : State) (f : FrameNo) (d : DoneRecord) :
    s.complete f d = { s with
      fpl := { s.fpl with frames := s.fpl.frames.set f (.done d) }
      osc := { s.osc with completion := s.osc.completion ++ [f] } } := rfl

theorem unqueue_only (s : State) (f : FrameNo) :
    s.unqueue f = { s with osc := { s.osc with
      urgent := s.osc.urgent.filter (fun g => g ≠ f), routine := s.osc.routine.filter (fun g => g ≠ f) } } := rfl

/-- The place of a frame in its queue: inserted, it is the same queue with the frame in it. -/
theorem mem_insertByPost (s : State) (n : Nat) (f g : FrameNo) (queue : List FrameNo) :
    g ∈ s.insertByPost n f queue ↔ g = f ∨ g ∈ queue := by
  induction queue with
  | nil => simp [State.insertByPost]
  | cons h rest ih =>
    simp only [State.insertByPost]
    split
    · simp only [List.mem_cons, ih]
      constructor <;> rintro (h | h | h) <;> simp [h]
    · simp

/-- A frame that is queued anew changes its record and its class's queue. -/
theorem enqueue_only (s : State) (f : FrameNo) (q : Posted) :
    s.enqueue f q = { s with
      fpl := { s.fpl with frames := s.fpl.frames.set f (.queued q) }, osc := (s.enqueue f q).osc } := by
  cases h : q.cls <;> simp [State.enqueue, State.withQueue, State.setFrame, State.withFpl, State.withOsc, h]

theorem enqueue_keeps (s : State) (f : FrameNo) (q : Posted) :
    (s.enqueue f q).osc.completion = s.osc.completion ∧ (s.enqueue f q).osc.slot = s.osc.slot ∧
    (s.enqueue f q).osc.creditLast = s.osc.creditLast ∧ (s.enqueue f q).osc.nextPost = s.osc.nextPost := by
  cases h : q.cls <;> simp [State.enqueue, State.withQueue, State.setFrame, State.withFpl, State.withOsc, h]

/-- Completing a QUEUED frame changes the records and OSC's queues. -/
theorem completeQueued_only (s : State) (o : Completion) (f : FrameNo) :
    s.completeQueued o f = { s with
      fpl := { s.fpl with frames := (s.completeQueued o f).fpl.frames }
      osc := { s.osc with
        urgent := (s.completeQueued o f).osc.urgent, routine := (s.completeQueued o f).osc.routine
        completion := (s.completeQueued o f).osc.completion } } := by
  unfold State.completeQueued
  split <;> rfl

theorem foldl_completeQueued_only (o : Completion) (l : List FrameNo) (s : State) :
    ∃ frames urgent routine completion, l.foldl (fun t f => t.completeQueued o f) s = { s with
      fpl := { s.fpl with frames := frames }
      osc := { s.osc with urgent := urgent, routine := routine, completion := completion } } := by
  induction l generalizing s with
  | nil => exact ⟨s.fpl.frames, s.osc.urgent, s.osc.routine, s.osc.completion, rfl⟩
  | cons f rest ih =>
    obtain ⟨a, b, c, d, h⟩ := ih (s.completeQueued o f)
    refine ⟨a, b, c, d, ?_⟩
    rw [List.foldl_cons, h, completeQueued_only s o f]

/-- Completing every frame to a peer changes the records and OSC's queues. -/
theorem completeAllTo_only (s : State) (p : Pos) (o : Completion) :
    ∃ frames urgent routine completion, s.completeAllTo p o = { s with
      fpl := { s.fpl with frames := frames }
      osc := { s.osc with urgent := urgent, routine := routine, completion := completion } } :=
  foldl_completeQueued_only o _ s

/-! ## Loss, reinitialisation, cancellation -/

/-- Loss of a peer changes the entries, the records, OSC's queues and the PEER event. -/
theorem losePeer_only (s : State) (p : Pos) (m : Nat) (o : Completion) :
    ∃ peers frames urgent routine completion, s.losePeer p m o = { s with
      peers := peers, fpl := { s.fpl with frames := frames }
      osc := { s.osc with urgent := urgent, routine := routine, completion := completion }
      lpt := { s.lpt with latched := { s.lpt.latched with peer := true } } } := by
  obtain ⟨peers, hp⟩ : ∃ peers, s.setPeer p (PeerEntry.lost m) = { s with peers := peers } := ⟨_, setPeer_only s p _⟩
  unfold State.losePeer
  rw [hp]
  obtain ⟨a, b, c, d, h⟩ :=
    completeAllTo_only (({ s with peers := peers } : State).mapFrames (fun r => r.clearCredit p)) p o
  rw [h]
  exact ⟨peers, a, b, c, d, by simp only [State.latchPeer, State.mapFrames, State.withFpl, State.withLpt]⟩

/-- Reinitialisation changes the entries, the records and the PEER event. -/
theorem reinitPeer_only (s : State) (p : Pos) :
    ∃ peers frames, s.reinitPeer p = { s with
      peers := peers, fpl := { s.fpl with frames := frames }
      lpt := { s.lpt with latched := { s.lpt.latched with peer := true } } } := by
  obtain ⟨peers, hp⟩ : ∃ peers, s.setPeer p (PeerEntry.reinitialised s.c0) = { s with peers := peers } :=
    ⟨_, setPeer_only s p _⟩
  unfold State.reinitPeer
  rw [hp]
  exact ⟨peers, _, rfl⟩

/-- The settlement of a cancelled frame's sequence changes the entries alone. -/
theorem settleCancelled_only (s : State) (q : Posted) (n : Nat) :
    s.settleCancelled q n = { s with peers := (s.settleCancelled q n).peers } := by
  unfold State.settleCancelled
  split
  · split <;> exact updPeer_only s _ _
  · rfl

theorem completeCancelled_only (s : State) (f : FrameNo) (q : Posted) (n : Nat) :
    s.completeCancelled f q n = { s with
      peers := (s.completeCancelled f q n).peers
      fpl := { s.fpl with frames := s.fpl.frames.set f (.done (q.doneRecord .cancelled n)) }
      osc := { s.osc with completion := s.osc.completion ++ [f] } } := by
  unfold State.completeCancelled
  rw [settleCancelled_only]
  rfl

/-! ## The slot -/

/-- A claim changes the records, the outbound queues and the slot. -/
theorem claimSlot_only (s : State) (t : Transmission) :
    ∃ frames urgent routine slot, s.claimSlot t = { s with
      fpl := { s.fpl with frames := frames }
      osc := { s.osc with urgent := urgent, routine := routine, slot := slot } } := by
  cases t with
  | frame f =>
    simp only [State.claimSlot]
    split
    · exact ⟨_, _, _, _, rfl⟩
    · exact ⟨s.fpl.frames, s.osc.urgent, s.osc.routine, s.osc.slot, rfl⟩
  | creditRetry p => exact ⟨s.fpl.frames, s.osc.urgent, s.osc.routine, _, rfl⟩
  | newCredit p o => exact ⟨s.fpl.frames, s.osc.urgent, s.osc.routine, _, rfl⟩
  | empty => exact ⟨s.fpl.frames, s.osc.urgent, s.osc.routine, _, rfl⟩

/-- What a settlement in the slot may change: entries, records, OSC, the PEER event. -/
def Settles (s t : State) : Prop :=
  ∃ peers frames osc peer, t = { s with
    peers := peers, fpl := { s.fpl with frames := frames }, osc := osc
    lpt := { s.lpt with latched := { s.lpt.latched with peer := peer } } }

theorem Settles.refl (s : State) : Settles s s :=
  ⟨s.peers, s.fpl.frames, s.osc, s.lpt.latched.peer, rfl⟩

theorem Settles.trans {s t u : State} (h : Settles s t) (k : Settles t u) : Settles s u := by
  obtain ⟨a, b, c, d, rfl⟩ := h
  obtain ⟨e, f, g, i, rfl⟩ := k
  exact ⟨e, f, g, i, rfl⟩

theorem settles_setSlot (s : State) (x : Option Transmission) : Settles s (s.setSlot x) :=
  ⟨s.peers, s.fpl.frames, _, s.lpt.latched.peer, rfl⟩

theorem settles_updPeer (s : State) (p : Pos) (g : PeerEntry → PeerEntry) : Settles s (s.updPeer p g) := by
  rw [updPeer_only]
  exact ⟨_, s.fpl.frames, s.osc, s.lpt.latched.peer, rfl⟩

theorem settles_complete (s : State) (f : FrameNo) (d : DoneRecord) : Settles s (s.complete f d) :=
  ⟨s.peers, _, _, s.lpt.latched.peer, rfl⟩

theorem settles_completeCancelled (s : State) (f : FrameNo) (q : Posted) (n : Nat) :
    Settles s (s.completeCancelled f q n) := by
  rw [completeCancelled_only]
  exact ⟨_, _, _, s.lpt.latched.peer, rfl⟩

theorem settles_enqueue (s : State) (f : FrameNo) (q : Posted) : Settles s (s.enqueue f q) := by
  rw [enqueue_only]
  exact ⟨s.peers, _, _, s.lpt.latched.peer, rfl⟩

theorem settles_losePeer (s : State) (p : Pos) (m : Nat) (o : Completion) : Settles s (s.losePeer p m o) := by
  obtain ⟨a, b, c, d, e, h⟩ := losePeer_only s p m o
  rw [h]
  exact ⟨_, _, _, _, rfl⟩

theorem settles_settleMessage (s : State) (f : FrameNo) (q : Posted) (c : Bool) (p : Pos) (a : Answer) :
    Settles s (s.settleMessage f q c p a) := by
  unfold State.settleMessage
  cases a <;> dsimp only
  case accepted => exact (settles_complete s f _).trans (settles_updPeer _ _ _)
  case refused => exact (settles_complete s f _).trans (settles_updPeer _ _ _)
  all_goals
    split
    · exact (settles_complete s f _).trans (settles_losePeer _ _ _ _)
    · split
      · exact settles_completeCancelled s f q _
      · exact settles_enqueue s f _

theorem settles_settleNewCredit (s : State) (p : Pos) (o : OpenSeq) (a : Answer) :
    Settles s (s.settleNewCredit p o a) := by
  unfold State.settleNewCredit
  cases a <;> exact settles_updPeer s p _

theorem settles_settleRetry (s : State) (p : Pos) (o : OpenCredit) (a : Answer) :
    Settles s (s.settleRetry p o a) := by
  unfold State.settleRetry
  cases a <;> dsimp only
  case accepted => exact settles_updPeer s p _
  case refused => exact settles_updPeer s p _
  all_goals
    split
    · exact settles_losePeer s p _ _
    · exact settles_updPeer s p _

/-- The outcome of the own window changes entries, records, OSC and the PEER event. -/
theorem settles_settleWindow (s : State) (t : Transmission) (c : Bool) (a b : Level) :
    Settles s (s.settleWindow t c a b) := by
  refine (settles_setSlot s none).trans ?_
  unfold State.settleWindow
  cases t with
  | frame f =>
    dsimp only
    split
    · split
      · exact settles_settleMessage _ _ _ _ _ _
      · split
        · exact settles_complete _ _ _
        · exact settles_complete _ _ _
    · exact Settles.refl _
  | creditRetry p =>
    dsimp only
    split
    · exact settles_settleRetry _ _ _ _
    · exact Settles.refl _
  | newCredit p o =>
    cases o with
    | none => exact Settles.refl _
    | some o => exact settles_settleNewCredit _ _ _ _
  | empty => exact Settles.refl _

/-- A withdrawal changes entries, records and OSC. -/
theorem settles_withdraw (s : State) : Settles s s.withdraw := by
  refine (settles_setSlot s none).trans ?_
  unfold State.withdraw
  dsimp only
  split
  · exact Settles.refl _
  · exact Settles.refl _
  · exact Settles.refl _
  · split
    · split
      · exact settles_complete _ _ _
      · split
        · exact settles_completeCancelled _ _ _ _
        · exact settles_enqueue _ _ _
    · exact Settles.refl _
  · exact settles_updPeer _ _ _
  · split
    · split
      · exact Settles.refl _
      · split
        · exact settles_updPeer _ _ _
        · exact settles_updPeer _ _ _
    · exact Settles.refl _

/-! ## Windows of other owners -/

/-- Accept changes the pool and the inbound queue. -/
theorem accept_only (s : State) (h : HeaderFields) (payload : List Byte) :
    ∃ frames freeList mem inbound, s.accept h payload = { s with
      fpl := { s.fpl with frames := frames, freeList := freeList, mem := mem }, ibu := { inbound := inbound } } := by
  unfold State.accept
  split
  · exact ⟨s.fpl.frames, s.fpl.freeList, s.fpl.mem, s.ibu.inbound, rfl⟩
  · exact ⟨_, _, _, _, rfl⟩

/-- A received grant changes the entries and the EXCESS event. -/
theorem applyGrant_only (s : State) (p : Pos) (g : Nat) :
    ∃ peers excess, s.applyGrant p g = { s with
      peers := peers, lpt := { s.lpt with latched := { s.lpt.latched with excess := excess } } } := by
  unfold State.applyGrant
  dsimp only
  rw [updPeer_only]
  split
  · exact ⟨_, true, rfl⟩
  · exact ⟨_, s.lpt.latched.excess, rfl⟩

/-- The Wake Unit changes its counters and its latch. -/
theorem presentToWake_only (s : State) (h : HeaderFields) :
    s.presentToWake h = { s with wku := { s.wku with
      entries := (s.presentToWake h).wku.entries, wakeLatch := (s.presentToWake h).wku.wakeLatch } } := by
  unfold State.presentToWake
  split <;> rfl

/-- What a decision may change: the entries, the pool, the inbound queue, the EXCESS event, the Wake Unit. -/
theorem applyDecision_only (s : State) (h : HeaderFields) (good : Bool) (payload : List Byte) :
    ∃ peers fpl ibu excess wku, s.applyDecision h good payload = { s with
      peers := peers, fpl := fpl, ibu := ibu, wku := wku
      lpt := { s.lpt with latched := { s.lpt.latched with excess := excess } } } := by
  have keep : ∃ peers fpl ibu excess wku, s = { s with
      peers := peers, fpl := fpl, ibu := ibu, wku := wku
      lpt := { s.lpt with latched := { s.lpt.latched with excess := excess } } } :=
    ⟨s.peers, s.fpl, s.ibu, s.lpt.latched.excess, s.wku, rfl⟩
  unfold State.applyDecision
  split
  · exact keep
  · split
    · split
      · obtain ⟨a, b, c, d, h1⟩ := accept_only s h payload
        obtain ⟨e, f, h2⟩ := applyGrant_only ((s.accept h payload).updPeer h.source
          (fun e => { e with granted := e.granted - 1, lastAccepted := some h.seq })) h.source h.grant
        unfold State.storeMessage
        rw [presentToWake_only, h2, updPeer_only, h1]
        exact ⟨_, _, _, _, _, rfl⟩
      · exact keep
    · split
      · obtain ⟨e, f, h2⟩ := applyGrant_only (s.updPeer h.source
          (fun e => { e with lastAccepted := some h.seq })) h.source h.grant
        unfold State.takeCredit
        rw [h2, updPeer_only]
        exact ⟨_, s.fpl, s.ibu, _, s.wku, rfl⟩
      · exact keep
    · split
      · obtain ⟨a, b, c, d, h1⟩ := accept_only s h payload
        unfold State.storeNotice
        rw [presentToWake_only, h1]
        exact ⟨s.peers, _, _, s.lpt.latched.excess, _, rfl⟩
      · exact keep

/-! ## Leaving the round -/

/-- Leaving the round keeps the queue, the free list, frame memory, the inbound queue, the Wake Unit and the port but
for its latched events. -/
theorem leaveRound_keeps (s : State) (entered : Participation) :
    (s.leaveRound entered).resetAsserted = s.resetAsserted ∧ (s.leaveRound entered).pending = s.pending ∧
    (s.leaveRound entered).fpl.freeList = s.fpl.freeList ∧ (s.leaveRound entered).fpl.mem = s.fpl.mem ∧
    (s.leaveRound entered).ibu = s.ibu ∧ (s.leaveRound entered).wku = s.wku ∧
    (s.leaveRound entered).lif.straps = s.lif.straps ∧ (s.leaveRound entered).rdc.participation = entered := by
  obtain ⟨a, b, c, d, h⟩ := settles_withdraw s
  simp [State.leaveRound, h, Lif.released]

end Sys2Proof.Laws
end

