-- ==== Sys2Proof/Laws/Line.lean ====
section
/-!
SUPPORT. What the edges of a cell, the passing of cell-times, the start of the own window and its undoing can change,
said once.
-/

namespace Sys2Proof.Laws

open Sys2Proof.Machine

/-! ## Edges and counts: the Line Interface alone -/

theorem fall_only (s : State) (clocking drives : Bool) :
    s.fall clocking drives = { s with lif := (s.fall clocking drives).lif } := rfl

theorem rise_only (s : State) (clocking drives : Bool) (sample : Level) :
    s.rise clocking drives sample = { s with lif := (s.rise clocking drives sample).lif } := rfl

/-- The drives after a fall. -/
theorem fall_drives (s : State) (clocking drives : Bool) :
    (s.fall clocking drives).lif.wclkDrive = clocking ∧ (s.fall clocking drives).lif.wdatDrive = drives ∧
    (s.fall clocking drives).lif.wclk = .low := ⟨rfl, rfl, rfl⟩

/-- The drives after a rise. -/
theorem rise_drives (s : State) (clocking drives : Bool) (sample : Level) :
    (s.rise clocking drives sample).lif.wclkDrive = false ∧
    (s.rise clocking drives sample).lif.wdatDrive = drives ∧ (s.rise clocking drives sample).lif.wclk = .high :=
  ⟨rfl, rfl, rfl⟩

/-- Cell-times change the Line Interface's counts and the sweep timer. -/
theorem elapse_only (s : State) (n : Nat) :
    s.elapse n = { s with lif := s.lif.elapse n, rdc := { s.rdc with sweep := s.rdc.sweep.elapse n } } := rfl

theorem quietUntil_only (s : State) (n : Nat) :
    s.quietUntil n = { s with
      lif := (s.quietUntil n).lif, rdc := { s.rdc with sweep := (s.quietUntil n).rdc.sweep } } := rfl

/-- After `quietUntil` both wires read HIGH and the idle-time count reads at least n. -/
theorem quietUntil_idle (s : State) (n : Nat) (hn : n ≤ Config.settleGap) :
    (s.quietUntil n).lif.wclk = .high ∧ (s.quietUntil n).lif.wdat = .high ∧ n ≤ (s.quietUntil n).lif.idle := by
  have hq : s.lif.quiet.wclk = .high ∧ s.lif.quiet.wdat = .high := by
    unfold Lif.quiet
    split
    · rename_i h
      simpa [bothHigh] using h
    · exact ⟨rfl, rfl⟩
  refine ⟨hq.1, hq.2, ?_⟩
  have hb : bothHigh s.lif.quiet = true := by simp [bothHigh, hq.1, hq.2]
  have hi : (s.quietUntil n).lif.idle = min Config.settleGap (s.lif.quiet.idle + (n - s.lif.quiet.idle)) := by
    simp [State.quietUntil, State.elapse, Lif.elapse, State.withLif, State.withRdc, hb]
  rw [hi]
  omega

/-- The stuck condition does not survive a release with both wires HIGH. -/
theorem lineStuck_quiet (l : Lif) (hc : l.clockLow = 0) (hd : l.dataLow = 0) : lineStuck l = false := by
  simp [lineStuck, hc, hd]

/-- A round starts: the Round Controller, the Line Interface and the Frame Engine's marks of the window. -/
theorem takeJoins_only (s : State) : s.takeJoins = { s with rdc := s.takeJoins.rdc } := by
  unfold State.takeJoins
  split
  · split <;> rfl
  · split <;> rfl
  all_goals rfl

theorem startRound_only (s : State) (opener : Bool) :
    s.startRound opener = { s with
      lif := (s.startRound opener).lif, rdc := (s.startRound opener).rdc
      fen := { s.fen with size := none, decision := none, undo := none } } := by
  unfold State.startRound State.beginRound
  rw [takeJoins_only]
  rfl

/-! ## Levels and counts by the edges alone -/

/-- A rise of WDAT on an idle line leaves WCLK and its count. -/
theorem dataRise_only (s : State) : s.dataRise = { s with
    lif := { s.lif with openSeen := false, wdat := .high, idle := 0, dataLow := 0 } } := rfl

/-- The rise of a mark cell that outlasted the clock-low threshold moves the Line Interface alone after the entry to
FAULT. -/
theorem stuckInMark_only (s : State) (others : Level) :
    s.stuckInMark others = { (s.holdLow .wclk).takeStuck with lif := (s.stuckInMark others).lif } := rfl

/-- No stuck condition is left by that rise. -/
theorem stuckInMark_not_stuck (s : State) (others : Level) : lineStuck (s.stuckInMark others).lif = false := by
  simp [State.stuckInMark, State.rise, State.withLif, lineStuck, Config.clockStuckAbove, Config.dataStuckAbove]

/-! ## The own window -/

/-- What a window start may change: entries, records, OSC, the transmit header and what a mark would undo. -/
def Starts (s t : State) : Prop :=
  ∃ peers frames osc tx undo, t = { s with
    peers := peers, fpl := { s.fpl with frames := frames }, osc := osc, fen := { s.fen with tx := tx, undo := undo } }

theorem Starts.refl (s : State) : Starts s s := ⟨s.peers, s.fpl.frames, s.osc, s.fen.tx, s.fen.undo, rfl⟩

theorem starts_startFrame (s : State) (f : FrameNo) (q : Posted) (c : Bool) : Starts s (s.startFrame f q c) := by
  unfold State.startFrame
  split
  · rw [completeCancelled_only]
    exact ⟨_, _, _, _, _, rfl⟩
  · dsimp only
    split
    · rw [updPeer_only]
      exact ⟨_, _, _, _, _, rfl⟩
    · exact ⟨s.peers, s.fpl.frames, _, _, _, rfl⟩
    · exact ⟨s.peers, s.fpl.frames, _, _, _, rfl⟩

theorem starts_startCredit (s : State) (p : Pos) : Starts s (s.startCredit p) := by
  unfold State.startCredit
  dsimp only
  split
  · exact ⟨s.peers, s.fpl.frames, _, _, _, rfl⟩
  · rw [updPeer_only]
    exact ⟨_, s.fpl.frames, _, _, _, rfl⟩

theorem starts_startWindow (s : State) : Starts s s.startWindow := by
  unfold State.startWindow
  split
  · exact Starts.refl s
  · split
    · exact starts_startFrame s _ _ _
    · exact Starts.refl s
  · split
    · exact ⟨s.peers, s.fpl.frames, _, _, _, rfl⟩
    · exact Starts.refl s
  · exact starts_startCredit s _
  · exact ⟨s.peers, s.fpl.frames, _, _, _, rfl⟩

/-! ## The collision comparison (07 R130) -/

theorem noteCollision_only (s : State) (n : Nat) :
    s.noteCollision n = { s with fen := { s.fen with
      tx := s.fen.tx.map (fun t => { t with collidedAt := some n }), undo := none } } := rfl

/-- A comparison leaves the state, or notes a collision. -/
theorem compareCell_cases (s : State) (n : Nat) (others : Level) :
    s.compareCell n others = s ∨ (others = .low ∧ s.ownSending = true ∧ s.comparesCell n = true ∧
      s.compareCell n others = s.noteCollision n) := by
  unfold State.compareCell
  split
  · rename_i h
    simp only [Bool.and_eq_true, beq_iff_eq] at h
    exact Or.inr ⟨h.2, h.1.1, h.1.2, rfl⟩
  · exact Or.inl rfl

/-- A cell that reads HIGH is no collision. -/
@[simp] theorem compareCell_high (s : State) (n : Nat) : s.compareCell n .high = s := by
  simp [State.compareCell]

/-- A claimant that the others leave alone goes through its payload and frame check as it was. -/
theorem afterBody_collided (x : Tx) (c : Nat) (payload : List Byte) (check : BitVec 16) (h : x.collidedAt = some c) :
    x.afterBody payload check = x := by
  unfold Tx.afterBody
  rw [h]

/-- Where it collides is the first cell that it releases and that reads LOW. -/
theorem firstCollision_some (x : Tx) (others : List Byte) (n : Nat) :
    x.firstCollision others = some n → x.collidesAt others n = true ∧
      ∀ m, m < n → x.collidesAt others m = false := by
  intro h
  unfold Tx.firstCollision at h
  rw [List.find?_range_eq_some] at h
  refine ⟨h.1, fun m hm => ?_⟩
  have := h.2.2 m hm
  simpa using this

/-! ## The staging buffer in the own window (03 R48) -/

theorem readOwnHeader_only (s : State) : s.readOwnHeader = { s with
    fen := { s.fen with staging := { s.fen.staging with header := s.readOwnHeader.fen.staging.header } } } := by
  unfold State.readOwnHeader
  split
  · split <;> rfl
  · rfl

theorem readOwnPayload_only (s : State) : s.readOwnPayload = { s with
    fen := { s.fen with staging := { s.fen.staging with payload := s.readOwnPayload.fen.staging.payload } } } := by
  unfold State.readOwnPayload
  split
  · split <;> rfl
  · rfl

/-- The transmit header is not touched by either. -/
@[simp] theorem readOwnHeader_tx (s : State) : s.readOwnHeader.fen.tx = s.fen.tx := by
  rw [readOwnHeader_only]

@[simp] theorem readOwnPayload_tx (s : State) : s.readOwnPayload.fen.tx = s.fen.tx := by
  rw [readOwnPayload_only]

/-- The end of the own window's body fills the payload, notes a collision and moves the stage; no state, decision or
entry changes. -/
theorem endOwnBody_only (s : State) (x : Tx) (payload : List Byte) (check : BitVec 16) :
    s.endOwnBody x payload check = { s with
      lif := (s.endOwnBody x payload check).lif
      fen := { s.fen with
        tx := some (x.afterBody payload check)
        staging := { s.fen.staging with
          payload := wiredAnd (lineBytes x.payload.length payload) (x.afterBody payload check).payloadOnLine } }
      rdc := { s.rdc with stage := .judged } } := rfl

end Sys2Proof.Laws
end

