-- ==== Sys2Proof/Laws/Memory.lean ====
section
/-!
SUPPORT. Frame memory: what a read finds after a write, and that every operation keeps the canonical form.
-/

namespace Sys2Proof.Laws

open Sys2Proof.Machine

/-- A read after a write finds the byte written at its address, and the byte before it elsewhere. -/
theorem read_write (m : List Host.Cell) (a b : Nat) (v : Byte) :
    Memory.read (Memory.write m a v) b = if b = a then some v else Memory.read m b := by
  induction m with
  | nil => simp [Memory.write, Memory.read, eq_comm]
  | cons x rest ih =>
    rcases x with ⟨k, w⟩
    simp only [Memory.write]
    split
    · simp [Memory.read, eq_comm]
    · split
      · subst_vars
        by_cases h : b = k <;> simp [Memory.read, h, eq_comm]
      · by_cases h : k = b <;> simp [Memory.read, ih, h]
        intro
        omega

theorem read_write_same (m : List Host.Cell) (a : Nat) (v : Byte) :
    Memory.read (Memory.write m a v) a = some v := by
  simp [read_write]

theorem read_write_other (m : List Host.Cell) {a b : Nat} (v : Byte) (h : b ≠ a) :
    Memory.read (Memory.write m a v) b = Memory.read m b := by
  simp [read_write, h]

/-- A read after writing bytes from `a` finds byte `b - a` of them inside, and the byte before outside. -/
theorem read_writeBytes (bytes : List Byte) (m : List Host.Cell) (a b : Nat) :
    Memory.read (Memory.writeBytes m a bytes) b =
      if a ≤ b ∧ b < a + bytes.length then bytes[b - a]? else Memory.read m b := by
  induction bytes generalizing m a with
  | nil =>
    have : ¬(a ≤ b ∧ b < a) := by omega
    simp [Memory.writeBytes, this]
  | cons x rest ih =>
    simp only [Memory.writeBytes, ih, read_write, List.length_cons]
    by_cases h : b = a
    · subst h
      simp
    · by_cases h2 : a + 1 ≤ b ∧ b < a + 1 + rest.length
      · have h3 : a ≤ b ∧ b < a + (rest.length + 1) := by omega
        have h4 : b - a = (b - (a + 1)) + 1 := by omega
        simp [h2, h3, h4]
      · have h3 : ¬(a ≤ b ∧ b < a + (rest.length + 1)) := by omega
        rw [if_neg h2, if_neg h, if_neg h3]

/-! ## The canonical form -/

/-- Every address of `m` is above `k`. -/
def Above (k : Nat) (m : List Host.Cell) : Prop := ∀ c ∈ m, k < c.1

theorem wf_cons (x : Host.Cell) (m : List Host.Cell) : Memory.wf (x :: m) = true ↔ Above x.1 m ∧ Memory.wf m = true := by
  induction m generalizing x with
  | nil => simp [Memory.wf, Above]
  | cons y rest ih =>
    simp only [Memory.wf, Bool.and_eq_true, decide_eq_true_eq]
    constructor
    · rintro ⟨h1, h2⟩
      refine ⟨?_, h2⟩
      intro c hc
      rcases List.mem_cons.1 hc with rfl | hc
      · exact h1
      · exact Nat.lt_trans h1 (((ih y).1 h2).1 c hc)
    · rintro ⟨h1, h2⟩
      exact ⟨h1 y (by simp), h2⟩

theorem above_write {k a : Nat} {m : List Host.Cell} (v : Byte) (h : Above k m) (ha : k < a) :
    Above k (Memory.write m a v) := by
  induction m with
  | nil => simpa [Memory.write, Above] using ha
  | cons y rest ih =>
    have hy : k < y.1 := h y (by simp)
    have hr : Above k rest := fun c hc => h c (by simp [hc])
    rcases y with ⟨ya, yb⟩
    simp only [Memory.write]
    split
    · intro c hc
      rcases List.mem_cons.1 hc with rfl | hc
      · exact ha
      · exact h c hc
    · split
      · intro c hc
        rcases List.mem_cons.1 hc with rfl | hc
        · exact ha
        · exact hr c hc
      · intro c hc
        rcases List.mem_cons.1 hc with rfl | hc
        · exact hy
        · exact ih hr c hc

/-- A write keeps the canonical form. -/
theorem wf_write {m : List Host.Cell} (a : Nat) (v : Byte) (h : Memory.wf m = true) :
    Memory.wf (Memory.write m a v) = true := by
  induction m with
  | nil => rfl
  | cons y rest ih =>
    rcases y with ⟨k, b⟩
    have hc := (wf_cons (k, b) rest).1 h
    simp only [Memory.write]
    split
    · rename_i hlt
      refine (wf_cons _ _).2 ⟨?_, h⟩
      intro c hm
      rcases List.mem_cons.1 hm with rfl | hm
      · exact hlt
      · exact Nat.lt_trans hlt (hc.1 c hm)
    · split
      · rename_i heq
        subst heq
        exact (wf_cons _ _).2 ⟨hc.1, hc.2⟩
      · exact (wf_cons _ _).2 ⟨above_write v hc.1 (by show k < a; omega), ih hc.2⟩

/-- Writing bytes keeps the canonical form. -/
theorem wf_writeBytes (bytes : List Byte) {m : List Host.Cell} (a : Nat) (h : Memory.wf m = true) :
    Memory.wf (Memory.writeBytes m a bytes) = true := by
  induction bytes generalizing m a with
  | nil => exact h
  | cons x rest ih => exact ih (a + 1) (wf_write a x h)

theorem mem_write {m : List Host.Cell} {a : Nat} {v : Byte} {c : Host.Cell} (h : c ∈ Memory.write m a v) :
    c = (a, v) ∨ c ∈ m := by
  induction m with
  | nil => simpa [Memory.write] using h
  | cons y rest ih =>
    rcases y with ⟨k, b⟩
    simp only [Memory.write] at h
    split at h
    · simpa using h
    · split at h
      · rcases List.mem_cons.1 h with rfl | h
        · simp
        · simp [h]
      · rcases List.mem_cons.1 h with rfl | h
        · simp
        · rcases ih h with rfl | h
          · simp
          · simp [h]

/-- A write inside frame memory lists only its addresses. -/
theorem inRange_write {m : List Host.Cell} {a : Nat} (v : Byte) (h : Memory.inRange m = true)
    (ha : a < Config.frameMemoryBytes) : Memory.inRange (Memory.write m a v) = true := by
  simp only [Memory.inRange, List.all_eq_true, decide_eq_true_eq] at h ⊢
  intro c hc
  rcases mem_write hc with rfl | hc
  · exact ha
  · exact h c hc

theorem inRange_writeBytes (bytes : List Byte) {m : List Host.Cell} {a : Nat} (h : Memory.inRange m = true)
    (ha : a + bytes.length ≤ Config.frameMemoryBytes) : Memory.inRange (Memory.writeBytes m a bytes) = true := by
  induction bytes generalizing m a with
  | nil => exact h
  | cons x rest ih =>
    simp only [List.length_cons] at ha
    exact ih (inRange_write x h (by omega)) (by omega)

/-- Reset memory lists nothing, in canonical form. -/
theorem reset_memory : Memory.wf State.reset.fpl.mem = true ∧ Memory.inRange State.reset.fpl.mem = true :=
  ⟨rfl, rfl⟩

/-- The bytes of a frame lie in frame memory (01 R1). -/
theorem frame_in_range (f : FrameNo) : frameBase f + 64 ≤ Config.frameMemoryBytes := by
  have := f.isLt
  simp only [frameBase, Config.frameBytes, Config.frameMemoryBytes]
  omega

/-- The byte at an address after one write. -/
theorem memByte_writeMem (s : State) (a b : Nat) (v : Byte) :
    (s.writeMem a v).memByte b = if b = a then v else s.memByte b := by
  have h : Memory.read (s.writeMem a v).fpl.mem b = _ := read_write s.fpl.mem a b v
  simp only [State.memByte, h]
  split <;> rfl

end Sys2Proof.Laws
end

