-- ==== Sys2Proof/Tests/Slice0.lean ====
section
/-!
SUPPORT. The author's own tests: the checks of WellFormed, the commands on small states with what the manual gives,
and states that meet the hypotheses of each statement. Station 5, C0 = 2, in most of them.
-/

set_option maxRecDepth 100000

namespace Sys2Proof.Tests

open Sys2Proof Sys2Proof.Machine

/-! ## WellFormed: an ill-formed command for each check -/

theorem test_wf_badCommand : (Instr.badCommand 0x5A).wellFormed = false ∧ (Instr.badCommand 0x00).wellFormed = true := by
  decide

theorem test_wf_registerWrite :
    (Instr.registerWrite (some 0xC18) 1).wellFormed = false ∧ (Instr.registerWrite (some 0xC36) 1).wellFormed = false ∧
    (Instr.registerWrite (some 0xC8C) 1).wellFormed = false ∧ (Instr.registerWrite (some 0xC19) 1).wellFormed = true ∧
    (Instr.registerWrite (some 0xC35) 1).wellFormed = true ∧ (Instr.registerWrite (some 0xC8B) 1).wellFormed = true := by
  decide

theorem test_wf_frameMemoryRead :
    (Instr.frameMemoryRead (some 0xC01)).wellFormed = false ∧ (Instr.frameMemoryRead (some 0xC03)).wellFormed = false ∧
    (Instr.frameMemoryRead (some 0xC05)).wellFormed = false ∧ (Instr.frameMemoryRead (some 0xC06)).wellFormed = true := by
  decide

theorem test_wf_frameMemoryWrite :
    (Instr.frameMemoryWrite (some 0xC00) 1).wellFormed = false ∧
    (Instr.frameMemoryWrite (some 0xBFF) 1).wellFormed = true := by decide

theorem test_wf_collision : (Instr.collision 520).wellFormed = false ∧ (Instr.collision 519).wellFormed = true := by
  decide

theorem test_wf_headerEnd :
    (Instr.headerEnd [0, 0, 0, 0, 0, 0, 0, 0]).wellFormed = false ∧
    (Instr.headerEnd [0, 0, 0, 0, 0, 0, 0]).wellFormed = true := by decide

theorem test_wf_frameCheckEnd :
    (Instr.frameCheckEnd (List.replicate 57 0) 0).wellFormed = false ∧
    (Instr.frameCheckEnd (List.replicate 56 0) 0).wellFormed = true := by decide

/-! ## Small states -/

/-- After a reset at position 5 with CREDIT strapped 1. -/
def base : State := State.afterReset { pos := 5, credit := 1, rate := 1 } [] 0 .idle none []

/-- An entry that satisfies 04 R65 with C0 = 2. -/
def entry : PeerEntry :=
  { present := true, missed := 0, held := 1, owed := 1, pending := 0, granted := 1, sendSeq := 3
    lastAccepted := some 6, openCredit := none }

def withPeer (s : State) (p : Pos) (e : PeerEntry) : State := { s with peers := s.peers.set p e }

/-- Participation and stage, with lead view 4. -/
def at' (s : State) (part : Participation) (stage : Stage) : State :=
  { s with rdc := { s.rdc with participation := part, stage := stage, leadView := some 4 } }

/-- A MEMBER at a stage, peers 3 and 9 PRESENT. -/
def member (stage : Stage) : State := at' (withPeer (withPeer base 3 entry) 9 entry) .member stage

/-- The station in the window of `owner`, at a stage. -/
def window (s : State) (owner : Pos) : State :=
  { s with rdc := { s.rdc with claimants := [owner, 12], window := some 0 } }

/-- A frame with a record, out of the free list and in the record's place. -/
def put (s : State) (f : FrameNo) (r : FrameRecord) : State :=
  { s with
    fpl := { s.fpl with frames := s.fpl.frames.set f r, freeList := s.fpl.freeList.filter (fun g => g ≠ f) }
    osc := { s.osc with
      urgent := if r.place = .urgentQueue then s.osc.urgent ++ [f] else s.osc.urgent
      routine := if r.place = .routineQueue then s.osc.routine ++ [f] else s.osc.routine
      slot := if r.place = .slot then some (.frame f) else s.osc.slot
      completion := if r.place = .completionQueue then s.osc.completion ++ [f] else s.osc.completion }
    ibu := { inbound := if r.place = .inboundQueue then s.ibu.inbound ++ [f] else s.ibu.inbound } }

/-- A MESSAGE of 2 bytes to peer 3, never sent. -/
def msg : Posted :=
  { cls := .routine, peer := some 3, length := 2, tag := 0x1234, attempts := 0, openSeq := none, postNo := 0 }

/-- The same sent once, with a grant of 1. -/
def sent : Posted := { msg with attempts := 1, openSeq := some { seq := 3, grant := 1 } }

def notice : Posted := { msg with peer := none }

def inMsg : InRecord := { cls := .routine, peer := some 3, creditBearing := true }

/-- A GOOD header of peer 3 for this station: MESSAGE, sequence 7, grant 1, two bytes. -/
def hdr : HeaderFields :=
  { source := 3, dest := 5, kind := .message, cls := .urgent, seq := 7, grant := 1, length := 2, tag := 0x1234 }

/-- A transmit header in FEN. -/
def sending (s : State) (x : Tx) : State := { s with fen := { s.fen with tx := some x } }

def tx : Tx := { header := encodeHeader { hdr with source := 5, dest := 3 }, payload := [1, 2], collidedAt := none }

/-- The station at the frame check of peer 3's window, its header read as `h`. -/
def reading (s : State) (h : HeaderFields) : State :=
  { s with fen := { s.fen with staging := { Staging.start 3 with
      header := encodeHeader h, headerState := .good, fields := some h } } }

/-- The frame check of `h` with payload 1, 2. -/
def goodCheck (h : HeaderFields) : BitVec 16 := crc16 (encodeHeader h ++ [1, 2].take h.length)

/-- A transaction in progress, its next data byte at `a`. -/
def inTxn (s : State) (read : Bool) (a : Addr) : State := { s with lpt := { s.lpt with txn := .active (ActiveTxn.begun read a) } }

/-- The command answers a next state of which this holds. -/
def gives (c : Instr) (s : State) (holds : State → Bool) : Bool :=
  match exec c s with
  | .next t => holds t
  | .fault _ | .refused _ => false

/-! ## Checks of the line, against known values -/

/-- CRC-16 with polynomial 0x1021 and preset 0xFFFF over "123456789" is 0x29B1 (07 R125). -/
theorem test_crc16 : crc16 [0x31, 0x32, 0x33, 0x34, 0x35, 0x36, 0x37, 0x38, 0x39] = 0x29B1 := by decide

/-- The header layout of 11 Table 11-1, written out: source 3, destination 5; kind 0, URGENT, sequence 7; grant 1; length
2; tag 0x1234. -/
theorem test_header_bytes : (encodeHeader hdr).take 6 = [0x35, 0x3C, 0x20, 0x02, 0x12, 0x34] := by decide

/-- A header of legal fields reads GOOD, seven bytes of 0xFF EMPTY, a wrong check BAD. -/
theorem test_header_states :
    readHeader (encodeHeader hdr) = (.good, some hdr) ∧ readHeader emptyHeader = (.empty, none) ∧
    readHeader [0x35, 0x3C, 0x20, 0x02, 0x12, 0x34, 0x00] = (.bad, none) := by decide

/-- Window order from lead 14 (06 R115). -/
theorem test_window_order : (windowOrder 14).take 4 = [14, 15, 0, 1] := by decide

/-! ## The local port -/

/-- From reset the free-list head is frame 0 (01 R8, R20). -/
theorem test_take : gives .take base (fun t =>
    t.frame 0 == .filling && t.lpt.takeLatch == 0 && t.lpt.sdo == some 0 && t.freeCount == 47) = true := by decide

theorem test_take_refused : gives .take { base with fpl := { base.fpl with freeList := [] } } (fun t =>
    t.lpt.takeLatch == 0xFF && t.lpt.sdo == some 0xFF && t.lpt.misuse == none) = true := by decide

theorem test_popInbound : gives .popInbound (put base 7 (.arrived inMsg)) (fun t =>
    t.frame 7 == .held inMsg && t.lpt.inboundLatch == 7 && t.ibu.inbound == []) = true := by decide

theorem test_popCompletion : gives .popCompletion (put base 7 (.done (sent.doneRecord .cancelled 2))) (fun t =>
    t.lpt.completionLatch == { frame := 7, outcome := 0x06, attempts := 2, tagHigh := 0x12, tagLow := 0x34 } &&
    t.frame 7 == .free && t.fpl.freeList.getLast? == some 7) = true := by decide

/-- The descriptor of frame 0 in memory: destination 3, URGENT, length 56, tag 0x1234 (11 Table 11-3). -/
def described (s : State) (length : Byte) : State :=
  { put s 0 .filling with fpl := { (put s 0 .filling).fpl with
      mem := [(0, 3), (1, 0x40), (2, length), (3, 0x12), (4, 0x34), (5, 0), (6, 0), (7, 0)] } }

theorem test_post : gives (.post 0) (described base 56) (fun t =>
    t.frame 0 == .queued { cls := .urgent, peer := some 3, length := 56, tag := 0x1234, attempts := 0, openSeq := none, postNo := 0 } &&
    t.osc.urgent == [0]) = true := by decide

theorem test_post_malformed : gives (.post 0) (described base 57) (fun t =>
    t.osc.completion == [0] && t.osc.urgent == []) = true := by decide

theorem test_release : gives (.release 7) (put (member .idle) 7 (.held inMsg)) (fun t =>
    t.frame 7 == .free && (t.peer 3).owed == 2) = true := by decide

theorem test_release_misuse : gives (.release 200) base (fun t =>
    t.lpt.misuse == some { kind := .releaseNotHeld, frame := none } && t.lpt.latched.misuse) = true := by decide

/-- A cancelled frame with a grant passes its sequence to the open credit frame (02 R41). -/
theorem test_cancel : gives (.cancel 7) (put (member .idle) 7 (.queued sent)) (fun t =>
    t.osc.completion == [7] && (t.peer 3).openCredit == some { seq := 3, grant := 1, attempts := 1 }) = true := by
  decide

theorem test_doze : gives .doze base (fun t => t.wku.doze && !t.irq) = true := by decide

theorem test_resume : gives .resume { base with wku := { base.wku with doze := true, wakeLatch := true } } (fun t =>
    !t.wku.doze && !t.wake) = true := by decide

theorem test_rejoin : gives .rejoin (member .idle) (fun t => t.rdc.rejoin) = true := by decide

theorem test_rejoin_conflict : gives .rejoin (at' base .conflict .idle) (fun t =>
    t.rdc.participation == .listening && t.rdc.leadView == none) = true := by decide

theorem test_softReset : gives .softReset (put (member .idle) 7 (.queued msg)) (fun t =>
    t.rdc.participation == .listening && t.frame 7 == .free && t.own == 5 && t.c0 == 2 && t.lpt.txn == .blocked) =
    true := by decide

theorem test_badCommand : gives (.badCommand 0x13) base (fun t =>
    t.lpt.misuse == some { kind := .badCommand, frame := none } && t.lpt.further == 0) = true := by decide

theorem test_eventClear : gives (.eventClear 0x10) { base with lpt := { base.lpt with
      latched := { base.lpt.latched with peer := true, line := true } } } (fun t =>
    !t.lpt.latched.peer && t.lpt.latched.line) = true := by decide

theorem test_registerWrite : gives (.registerWrite (some 0xC31) 0xFF) base (fun t =>
    (t.wakeEntry 0).settings1 == 0x1F && t.lpt.enable == 0) = true := by decide

theorem test_registerWrite_enable : gives (.registerWrite (some 0xC19) 0x20) base (fun t =>
    t.irq && t.eventStatus == 0x20) = true := by decide

theorem test_frameMemoryRead : gives (.frameMemoryRead (some 2)) (described base 56) (fun t =>
    t.lpt.sdo == some 56) = true := by decide

/-- The status area reads position, C0 and rate (11 Table 11-7). -/
theorem test_statusRead : gives (.frameMemoryRead (some 0xC22)) base (fun t => t.lpt.sdo == some 2) = true := by decide

theorem test_frameMemoryWrite : gives (.frameMemoryWrite (some 8) 0xAB) (put base 0 .filling) (fun t =>
    t.memByte 8 == 0xAB) = true := by decide

theorem test_frameMemoryWrite_misuse : gives (.frameMemoryWrite (some 64) 0xAB) base (fun t =>
    t.fpl.mem == [] && t.lpt.misuse == some { kind := .writeNotFilling, frame := some 1 }) = true := by decide

theorem test_transactionEnd : gives .transactionEnd (inTxn base true 0) (fun t => t.lpt.txn == .idle) = true := by
  decide

theorem test_resetAssert : gives .resetAssert (inTxn (member .idle) true 0) (fun t =>
    t.resetAsserted && t.lpt.txn == .blocked && !t.irq) = true := by decide

theorem test_resetRelease : gives (.resetRelease { pos := 9, credit := 3, rate := 2 }) { member .idle with resetAsserted := true }
    (fun t => !t.resetAsserted && t.own == 9 && t.c0 == 4 && t.rdc.participation == .listening) = true := by decide

/-! ## The line between rounds -/

theorem test_boundary : gives .boundary base (fun t =>
    t.rdc.participation == .observing && t.rdc.sweep == .running 0 && t.lif.idle == 24) = true := by decide

theorem test_faultRecovery : gives .faultRecovery (at' base .fault .idle) (fun t =>
    t.rdc.participation == .listening && t.lif.idle == 0) = true := by decide

theorem test_stuckLine : gives (.stuckLine .wclk) (member .lead) (fun t =>
    t.rdc.participation == .fault && t.lpt.latched.line && t.lif.clockLow == 257) = true := by decide

theorem test_roundStopped : gives .roundStopped (at' base .observing .presence) (fun t =>
    t.rdc.participation == .listening && !t.lpt.latched.line) = true := by decide

/-- In CONFLICT the stuck condition ends when the wires read HIGH, and a REJOIN then enters LISTENING (08 R147). -/
theorem test_conflict_line_recovers :
    gives .roundStopped { base with
        rdc := { base.rdc with participation := .conflict }
        lif := { base.lif with wclk := .low, clockLow := 257 } } (fun t =>
      t.rdc.participation == .conflict && !lineStuck t.lif &&
      gives .rejoin t (fun u => u.rdc.participation == .listening)) = true := by decide

theorem test_open : gives .openRound { member .idle with rdc := { (member .idle).rdc with rejoin := true } } (fun t =>
    t.lif.wdatDrive && t.lif.openCount == some 0) = true := by decide

theorem test_openComplete : gives .openComplete
    { member .idle with lif := { (member .idle).lif with openCount := some 0, wdatDrive := true, wdat := .low } } (fun t =>
    t.rdc.stage == .lead && t.rdc.chain == 1 && t.lif.wclkDrive && t.lif.wdatDrive) = true := by decide

theorem test_openSeen : gives .openSeen (member .idle) (fun t => t.lif.openSeen && t.lif.wdat == .low) = true := by decide

theorem test_roundStart : gives .roundStart { member .idle with lif := { (member .idle).lif with openSeen := true } }
    (fun t => t.rdc.stage == .lead && t.rdc.sweep == .held && !t.lif.openSeen) = true := by decide

theorem test_openAbandoned : gives .openAbandoned { member .idle with lif := { (member .idle).lif with openSeen := true } }
    (fun t => t.rdc.stage == .idle && !t.lif.openSeen) = true := by decide

/-- WDAT rises at a LISTENING station (log 45). -/
theorem test_openAbandoned_unseen : gives .openAbandoned { base with lif := { base.lif with wdat := .low, dataLow := 3 } }
    (fun t => t.lif.wdat == .high && t.lif.dataLow == 0 && t.rdc.participation == .listening) = true := by decide

/-- The same with WCLK low: WCLK and its count go on (08 R147). -/
theorem test_openAbandoned_clock_low : gives .openAbandoned
    { base with lif := { base.lif with wdat := .low, wclk := .low, clockLow := 200 } }
    (fun t => t.lif.wdat == .high && t.lif.wclk == .low && t.lif.clockLow == 200 && t.lif.idle == 0) = true := by decide

/-- In the high phase of a cell a WDAT fall is no OPEN, and its rise ends the count (08 R140). -/
theorem test_openSeen_in_round : gives .openSeen (member .body) (fun t =>
    t.lif.wdat == .low && !t.lif.openSeen && t.rdc.stage == .body &&
    gives .openAbandoned t (fun u => u.lif.wdat == .high && u.rdc.stage == .body)) = true := by decide

/-- An OBSERVING station in no clock of its own: 65 cell-times of WDAT low in a high phase are a stuck line (08 R147). -/
theorem test_dataLow_in_round : gives .openSeen (at' base .observing .body) (fun t =>
    (t.elapse 64).tick.rdc.participation == .fault) = true := by decide

theorem test_strayClockFall : gives .strayClockFall (member .idle) (fun t =>
    t.rdc.stage == .idle && t.lif.wclk == .low && !t.lif.wclkDrive) = true := by decide

theorem test_sweepRunOut : gives .sweepRunOut { member .idle with rdc := { (member .idle).rdc with sweep := .running 9 } }
    (fun t => t.sweepOut && t.reasonToOpen) = true := by decide

/-- On an empty queue an idle-time count of 24 takes LISTENING to OBSERVING (log 3). -/
theorem test_tick : ({ base with lif := { base.lif with idle := 23 } } : State).tick.rdc.participation = .observing := by
  decide

/-! ## The fields -/

/-- Views 4 and 6: the AND is 4 (06 R111). -/
theorem test_leadFieldEnd : gives (.leadFieldEnd 6) (member .lead) (fun t => t.rdc.leadView == some 4) = true := by
  decide

theorem test_ownPresenceCellLow : gives .ownPresenceCellLow (at' base .observing .presence) (fun t =>
    t.rdc.participation == .conflict && t.lpt.latched.line && t.lif.wdat == .low && t.lif.wclk == .high) = true := by decide

/-- Peer 3 drives its cell, peer 9 does not for the third time (05 R84, R85). -/
theorem test_presenceFieldEnd : gives (.presenceFieldEnd 0xFFF7) (withPeer (member .presence) 9 { entry with missed := 2 })
    (fun t => (t.peer 3).missed == 0 && t.peer 9 == PeerEntry.lost 3 && t.lpt.latched.peer) = true := by decide

theorem test_joinFieldEnd : gives (.joinFieldEnd 0xFFF7) (member .join) (fun t =>
    t.peer 3 == PeerEntry.reinitialised 2 && t.peer 9 == entry) = true := by decide

theorem test_ownJoin : gives (.joinFieldEnd 0xFFFF) { at' base .joining .join with
      rdc := { (at' base .joining .join).rdc with presence := 0xFFD7 } } (fun t =>
    t.rdc.participation == .member && t.peer 3 == PeerEntry.reinitialised 2 && !(t.peer 9).present) = true := by decide

/-- Owed 1 and spare make peer 3 the credit-frame candidate (04 R73, R74). -/
theorem test_ownClaimCell : gives (.ownClaimCell .high) (member .claim) (fun t =>
    t.osc.slot == some (.newCredit 3 none) && t.lif.wdatDrive && t.rdc.stage == .claimed) = true := by decide

theorem test_ownClaimCell_frame : gives (.ownClaimCell .high) (put (member .claim) 7 (.queued { msg with cls := .urgent }))
    (fun t => t.osc.slot == some (.frame 7) && t.osc.urgent == []) = true := by decide

/-- Claimants 5 and 2 from lead 4: window order 5, 2; the next lead is 6 (06 R115, R116). -/
theorem test_claimFieldEnd : gives (.claimFieldEnd 0xFFFB)
    { member .claimed with osc := { (member .claimed).osc with slot := some .empty } } (fun t =>
    t.rdc.claimants == [5, 2] && t.rdc.leadView == some 6 && t.rdc.window == some 0) = true := by decide

/-! ## The windows -/

theorem test_windowStart : gives .windowStart (window (put (member .header) 7 (.sending msg false)) 5) (fun t =>
    t.frame 7 == .sending { msg with openSeq := some { seq := 3, grant := 1 } } false && (t.peer 3).pending == 1 &&
    (t.peer 3).owed == 0 && (t.fen.tx.map (fun x => x.header.take 3)) == some [0x53, 0x0C, 0x20]) = true := by decide

theorem test_windowStart_cancelled : gives .windowStart (window (put (member .header) 7 (.sending msg true)) 5) (fun t =>
    t.osc.slot == some .empty && t.osc.completion == [7] && (t.peer 3).pending == 0) = true := by decide

/-- Cell 1 of header byte 0x53 is a 1, released; cell 0 is driven (07 R130). -/
theorem test_collision : gives (.collision 1) (sending (window (member .header) 5) tx) (fun t =>
    t.fen.tx == some { tx with collidedAt := some 1 }) = true := by decide

theorem test_emptySettlement : gives .emptySettlement
    (sending (window { member .header with osc := { (member .header).osc with slot := some .empty } } 5)
      { header := emptyHeader, payload := [], collidedAt := none }) (fun t =>
    t.osc.slot == none && t.rdc.stage == .mark && t.rdc.streak == 0) = true := by decide

theorem test_headerEnd : gives (.headerEnd (encodeHeader hdr)) (window (member .header) 3) (fun t =>
    t.fen.staging.headerState == .good && t.fen.staging.fields == some hdr && t.rdc.stage == .mark) = true := by decide

/-- A GOOD header from another source than the owner (07 R132). -/
theorem test_headerEnd_mismatch : gives (.headerEnd (encodeHeader hdr)) (window (member .header) 9) (fun t =>
    t.rdc.participation == .listening && t.lpt.latched.line) = true := by decide

theorem test_markCell : gives (.markCell ⟨0, .high⟩) (reading (window (member .mark) 3) hdr) (fun t =>
    t.fen.size == some 91 && t.rdc.stage == .body) = true := by decide

theorem test_markCell_marked : gives (.markCell ⟨2, .high⟩) (reading (window (member .mark) 3) hdr) (fun t =>
    t.fen.size == some 523) = true := by decide

/-- Granted 1, sequence 7 after 6: stored in frame 0 (03 R53), held 2. -/
theorem test_frameCheckEnd : gives (.frameCheckEnd [1, 2] (goodCheck hdr)) (reading (window (member .body) 3) hdr) (fun t =>
    t.frame 0 == .arrived { cls := .urgent, peer := some 3, creditBearing := true } && t.memByte 0 == 3 &&
    t.memByte 1 == 0x40 && t.memByte 9 == 2 && t.memByte 10 == 0 && (t.peer 3).held == 2 && (t.peer 3).granted == 0 &&
    t.fen.decision == some .accept) = true := by decide

theorem test_frameCheckEnd_failed : gives (.frameCheckEnd [1, 3] (goodCheck hdr)) (reading (window (member .body) 3) hdr)
    (fun t => t.fen.decision == some .damagedBoth && t.frame 0 == .free) = true := by decide

/-- In the own window the cells as read fill the staging buffer, and no state is fixed (03 R48). -/
theorem test_frameCheckEnd_own : gives (.frameCheckEnd [] 0xFFFF) (sending (window (member .body) 5) tx) (fun t =>
    t.fen.staging.payload == [1, 2] && t.fen.staging.checkState == some .arriving && t.fen.decision == none &&
    t.fen.tx == some tx && t.rdc.stage == .judged) = true := by decide

/-- Payload byte 1 has its one released cell at 63; another station drives it, and a later cell of the frame check. The
window then ends COLLIDED whatever the answer cells read (07 R130). -/
theorem test_frameCheckEnd_own_collides : gives (.frameCheckEnd [0xFE] 0)
    (sending (window (put (member .body) 7 (.sending sent false)) 5) tx) (fun t =>
      t.fen.tx == some { tx with collidedAt := some 63 } && t.fen.staging.payload == [0, 0xFF] &&
      gives (.outcome .low .high) t (fun u => u.frame 7 == .queued { sent with attempts := 2 } && u.rdc.streak == 1)) =
    true := by decide

/-- Cell 56 is driven by this claimant for payload byte 1, and released for 0x80 (07 R130). -/
theorem test_markCell_collides :
    gives (.markCell ⟨0, .low⟩) (sending (window (put (member .header) 7 (.sending sent false)) 5) tx) (fun t =>
      t.fen.tx == some tx) = true ∧
    gives (.markCell ⟨0, .low⟩) (sending (window (put (member .header) 7 (.sending sent false)) 5) { tx with payload := [0x80] })
      (fun t => t.fen.tx == some { tx with payload := [0x80], collidedAt := some 56 } && t.fen.size == some 83) = true := by
  decide

theorem test_markCell_own : gives (.markCell ⟨0, .high⟩) (sending (window (put (member .header) 7 (.sending sent false)) 5) tx) (fun t =>
    t.fen.staging.header == tx.header && t.fen.staging.headerState == .arriving && t.fen.size == some 91) = true := by
  decide

/-- The cell is sampled at its rise (08 R140). -/
theorem test_markCell_sample : gives (.markCell ⟨0, .low⟩) (reading (window (member .mark) 3) hdr) (fun t =>
    t.lif.wdat == .low && t.lif.wclk == .high && t.rdc.stage == .body) = true := by decide

/-- A low phase of 257 cell-times is a stuck line; one of 256 is a mark (08 R147). -/
theorem test_markCell_stuck :
    gives (.markCell ⟨257, .high⟩) (reading (window (member .mark) 3) hdr) (fun t =>
      t.rdc.participation == .fault && t.lpt.latched.line && !lineStuck t.lif) = true ∧
    gives (.markCell ⟨256, .high⟩) (reading (window (member .mark) 3) hdr) (fun t => t.fen.size == some 523) = true := by
  decide

theorem test_answerDrive : gives .answerDrive
    { window (member .judged) 3 with fen := { (member .judged).fen with decision := some .refuse } } (fun t =>
    !t.fen.answerA && t.fen.answerB && t.lif.wdatDrive && t.lif.wclk == .low && t.rdc.stage == .answered) = true := by
  decide

theorem test_outcome_accepted : gives (.outcome .low .high) (sending (window (put (member .body) 7 (.sending sent false)) 5) tx)
    (fun t => t.frame 7 == .done (sent.doneRecord .delivered 1) && (t.peer 3).held == 0 && (t.peer 3).granted == 2 &&
      (t.peer 3).sendSeq == 4 && t.osc.slot == none) = true := by decide

/-- The fourth failure loses the peer (02 R37). -/
theorem test_outcome_fourth : gives (.outcome .high .high)
    (sending (window (put (member .body) 7 (.sending { sent with attempts := 3 } false)) 5) tx) (fun t =>
    t.frame 7 == .done (sent.doneRecord .peerLost 4) && t.peer 3 == PeerEntry.lost 0) = true := by decide

theorem test_windowEnd : gives .windowEnd (window (member .answered) 3) (fun t =>
    t.rdc.window == some 1 && t.rdc.stage == .header && t.fen.staging.owner == 12) = true := by decide

/-- Cell B driven, the own window next: WDAT stays low to the drive of its cell 0, or is released there (08 R140). -/
theorem test_windowEnd_holds_data :
    gives .windowEnd { member .answered with
        osc := { base.osc with slot := some (.newCredit 3 none) }
        rdc := { (member .answered).rdc with claimants := [3, 5], window := some 0 }
        fen := { base.fen with answerB := true }
        lif := { base.lif with wdatDrive := true, wdat := .low } } (fun t =>
      t.lif.wdatDrive && t.lif.wdat == .low && gives .windowStart t (fun u => u.lif.wdatDrive && u.lif.wdat == .low)) = true ∧
    gives .windowEnd { window (member .answered) 3 with lif := { base.lif with wdatDrive := true, wdat := .low } }
      (fun t => !t.lif.wdatDrive) = true := by decide

theorem test_carryDrive : gives .carryDrive (member .carry) (fun t => t.lif.wdatDrive && t.rdc.stage == .carryCell) = true := by
  decide

theorem test_chainedRoundStart : gives .chainedRoundStart
    { member .carryCell with rdc := { (member .carryCell).rdc with chain := 8 } } (fun t =>
    t.rdc.chain == 8 && t.rdc.stage == .lead) = true := by decide

theorem test_roundEnd : gives .roundEnd (member .carryCell) (fun t =>
    t.rdc.stage == .idle && t.rdc.sweep == .running 0 && t.rdc.chain == 0) = true := by decide

/-! ## States that meet the hypotheses of the statements

One theorem for each statement that has hypotheses, each clause at its own state. A clause that asks for an invariant
has the definitions unfolded and decided at the state. -/

theorem test_meets_StepRunsTheFrontCommand : ({ base with pending := [.take, .doze] } : State).pending = .take :: [.doze] := by
  decide

theorem test_meets_EveryStepAnswersNext :
    base.pending = [] ∧ ({ base with resetAsserted := true } : State).resetAsserted = true ∧
    ({ base with lif := { base.lif with phase := .low } } : State).lif.phase ≠ .none := by decide

theorem test_meets_ResetHoldsOffCommands :
    ({ base with resetAsserted := true } : State).resetAsserted = true ∧ Instr.take ≠ .transactionEnd ∧
    ∀ x, Instr.take ≠ .resetRelease x := by
  refine ⟨rfl, by decide, ?_⟩
  intro x h
  cases h

/-- For every statement whose hypothesis is that RESET is not asserted. -/
theorem test_meets_resetNotAsserted : base.resetAsserted = false ∧ (member .idle).resetAsserted = false := by decide

/-- Spare 1 and outbound-owned 31 on one side, spare 0, and outbound-owned 32, on the other (01 R8). -/
def edge (spare owned : Nat) : State :=
  { base with
    peers := base.peers.set 3 { entry with granted := 48 - owned - spare }
    fpl := { base.fpl with
      frames := Vector.ofFn (fun f : FrameNo => if f.val < owned then .filling else .free)
      freeList := (List.finRange 48).filter (fun f => owned ≤ f.val) } }

theorem test_meets_SoftResetResetsEveryBlock : base.resetAsserted = false := rfl

theorem test_meets_PinResetEdges : base.resetAsserted = false := rfl

theorem test_meets_EventsIrqAndEventClear : base.resetAsserted = false := rfl

theorem test_meets_TakeByItsTest :
    (edge 1 31).takeReady = true ∧ (edge 0 31).takeReady = false ∧ (edge 1 32).takeReady = false := by decide

theorem test_meets_PopInboundMovesTheHead :
    (put base 7 (.arrived inMsg)).ibu.inbound = 7 :: [] ∧ (put base 7 (.arrived inMsg)).frame 7 = .arrived inMsg ∧
    base.ibu.inbound = [] := by decide

theorem test_meets_PopCompletionLatchesTheRecord :
    (put base 7 (.done (msg.doneRecord .delivered 0))).osc.completion = 7 :: [] ∧
    (put base 7 (.done (msg.doneRecord .delivered 0))).frame 7 = .done (msg.doneRecord .delivered 0) ∧
    base.osc.completion = [] := by decide

/-- Length 57 fails the checks, 56 passes; the destination's entry is ABSENT at a MEMBER without it. -/
theorem test_meets_PostByTheDescriptor :
    (described base 57).frame 0 = .filling ∧ 56 < ((described base 57).frameByte 0 2).toNat ∧
    (described base 56).frame 0 = .filling ∧ ((described base 56).frameByte 0 2).toNat ≤ 56 ∧
    (described base 56).rdc.participation ≠ .member ∧
    (described (at' base .member .idle) 56).rdc.participation = .member ∧
    ((described (at' base .member .idle) 56).peer 3).present = false := by decide

theorem test_meets_ReleaseFreesAHeldFrame :
    (put (member .idle) 7 (.held inMsg)).frame 7 = .held inMsg ∧ inMsg.creditBearing = true ∧ inMsg.peer = some 3 ∧
    (3 : Pos) ≠ (put (member .idle) 7 (.held inMsg)).own := by decide

theorem test_meets_CancelByFrameState :
    (put (member .idle) 7 (.queued sent)).frame 7 = .queued sent ∧ sent.peer = some 3 ∧
    (3 : Pos) ≠ (put (member .idle) 7 (.queued sent)).own ∧
    (put (member .claimed) 7 (.sending sent false)).frame 7 = .sending sent false := by decide

/-- Frame 47 FREE, the value 48, the value 255, and a command code that names no command. -/
theorem test_meets_RefusedRequestsAreMisuses :
    base.frame 47 = .free ∧ (48 : Byte).toNat = 48 ∧ (255 : Byte).toNat = 255 ∧
    (0x10 : Byte) ≠ 0x11 ∧ (0x10 : Byte) ≠ 0x12 ∧ (0x10 : Byte) ≠ 0x21 ∧ (0x10 : Byte) ≠ 0x5A := by decide

theorem test_meets_DozeAndResume :
    base.wku.doze = false ∧ base.WakeRests ∧
    ({ base with wku := { base.wku with doze := true } } : State).wku.doze = true := by
  refine ⟨by decide, ?_, by decide⟩
  unfold State.WakeRests
  decide

/-- In CONFLICT, with a line that is stuck. -/
def conflictStuck : State :=
  { base with
    rdc := { base.rdc with participation := .conflict }
    lif := { base.lif with wclk := .low, clockLow := 257 } }

/-- In CONFLICT, with a line that is free. -/
def conflictFree : State := { base with rdc := { base.rdc with participation := .conflict } }

theorem conflictFree_silent : conflictFree.SilentOutOfRound := by
  unfold State.SilentOutOfRound
  decide

theorem conflictStuck_silent : conflictStuck.SilentOutOfRound := by
  unfold State.SilentOutOfRound
  decide

theorem conflictStuck_wires : conflictStuck.WiresConsistent := by
  refine ⟨?_, ?_, ?_, ?_, ?_, ?_, ?_, ?_⟩ <;> decide

theorem test_meets_RejoinByParticipation :
    (member .idle).rdc.participation = .member ∧ conflictFree.SilentOutOfRound ∧ lineStuck conflictFree.lif = false ∧
    conflictStuck.SilentOutOfRound ∧ conflictStuck.WiresConsistent ∧ lineStuck conflictStuck.lif = true ∧
    base.rdc.participation ≠ .member ∧ base.rdc.participation ≠ .conflict :=
  ⟨by decide, conflictFree_silent, by decide, conflictStuck_silent, conflictStuck_wires, by decide, by decide, by decide⟩

/-- A first byte and a later one, at the ends of each range. -/
theorem test_meets_RegisterWriteStores :
    base.txnFor false (some 0xC19) = some (ActiveTxn.begun false 0xC19) ∧
    (inTxn base false 0xC30).txnFor false none = some (ActiveTxn.begun false 0xC30) ∧
    (inTxn base false 0xC35).txnFor false none = some (ActiveTxn.begun false 0xC35) ∧
    (ActiveTxn.begun false 0xC30).addr.toNat = 0xC30 + 2 * (0 : Fin 3).val ∧
    (ActiveTxn.begun false 0xC35).addr.toNat = 0xC31 + 2 * (2 : Fin 3).val ∧
    (ActiveTxn.begun false 0xC80).addr.toNat = 0xC80 + 4 * (0 : Fin 3).val ∧
    (ActiveTxn.begun false 0xC81).addr.toNat = 0xC81 + 4 * (0 : Fin 3).val ∧
    (ActiveTxn.begun false 0xC8A).addr.toNat = 0xC82 + 4 * (2 : Fin 3).val ∧
    (ActiveTxn.begun false 0xC8B).addr.toNat = 0xC83 + 4 * (2 : Fin 3).val := by decide

/-- The last byte of frame memory, in a FILLING, a HELD and a FREE frame. -/
theorem test_meets_FrameMemoryReadByFrameState :
    base.txnFor true (some 0xBFF) = some (ActiveTxn.begun true 0xBFF) ∧
    (ActiveTxn.begun true 0xBFF).addr.toNat = 64 * (47 : FrameNo).val + 63 ∧
    (put base 47 .filling).frame 47 = .filling ∧ (put base 47 (.held inMsg)).frame 47 = .held inMsg ∧
    base.frame 47 ≠ .filling ∧ ∀ r, base.frame 47 ≠ .held r := by
  refine ⟨by decide, by decide, by decide, by decide, by decide, ?_⟩
  intro r h
  have hf : base.frame 47 = .free := by decide
  rw [hf] at h
  cases h

/-- An acting port reached by auto-increment, and the ends of the ranges. -/
theorem test_meets_PortReadsByAddress :
    (inTxn base true 0xC01).txnFor true none = some (ActiveTxn.begun true 0xC01) ∧
    (Instr.frameMemoryRead none).wellFormed = true ∧
    (Instr.frameMemoryRead (some 0xC06)).wellFormed = true ∧ (Instr.frameMemoryRead (some 0xC8B)).wellFormed = true ∧
    (ActiveTxn.begun true 0xC8B).addr.toNat = 0xC83 + 4 * (2 : Fin 3).val ∧
    (ActiveTxn.begun true 0xC2F).addr.toNat = 0xC20 + 15 ∧
    (ActiveTxn.begun true 0xC7F).addr.toNat = 0xC40 + 4 * (15 : Pos).val + 3 ∧
    0xC8C ≤ (ActiveTxn.begun true 0xFFF).addr.toNat := by decide

theorem test_meets_FrameMemoryWriteByFrameState :
    base.txnFor false (some 0xBFF) = some (ActiveTxn.begun false 0xBFF) ∧
    (ActiveTxn.begun false 0xBFF).addr.toNat = 64 * (47 : FrameNo).val + 63 ∧
    (put base 47 .filling).frame 47 = .filling ∧ base.frame 47 ≠ .filling ∧
    (inTxn base false 0xC10).txnFor false none = some (ActiveTxn.begun false 0xC10) ∧
    0xC00 ≤ (ActiveTxn.begun false 0xC10).addr.toNat ∧ isStoredRegister (ActiveTxn.begun false 0xC10).addr = false := by
  decide

/-- A state with a frame in each of these places. -/
def full : State :=
  put (put (put (put (put (member .idle) 0 .filling) 1 (.queued msg)) 2 (.done (msg.doneRecord .delivered 0))) 3
    (.arrived inMsg)) 4 (.held inMsg)

theorem full_placed : full.Placed := by
  unfold State.Placed
  decide

theorem test_meets_PoolCountsFollowTheRequests :
    full.Placed ∧ full.OwnEntryReset ∧ full.resetAsserted = false ∧ full.takeReady = true ∧
    (edge 0 31).takeReady = false ∧ full.frame 0 = .filling ∧ full.osc.completion ≠ [] ∧
    full.frame 4 = .held inMsg ∧ (∃ t, exec .take full = .next t) := by
  refine ⟨full_placed, ?_, by decide, by decide, by decide, by decide, by decide, by decide, ⟨_, rfl⟩⟩
  unfold State.OwnEntryReset
  decide

theorem test_meets_ParticipationByCountsAndCells :
    base.rdc.participation = .listening ∧
    ({ base with rdc := { base.rdc with participation := .fault } } : State).SilentOutOfRound ∧
    (at' base .observing .presence).rdc.participation = .observing ∧ (at' base .observing .presence).osc.slot = none ∧
    (at' base .observing .presence).rdc.stage ≠ .idle ∧ (at' base .observing .presence).rdc.stage = .presence := by
  unfold State.SilentOutOfRound
  decide

theorem test_meets_StuckLineLeadsToFault :
    base.rdc.participation ≠ .conflict ∧ base.rdc.participation ≠ .fault ∧
    conflictStuck.rdc.participation = .conflict ∧ conflictStuck.SilentOutOfRound ∧ conflictFree.SilentOutOfRound ∧
    ({ base with rdc := { base.rdc with participation := .fault } } : State).SilentOutOfRound :=
  ⟨by decide, by decide, by decide, conflictStuck_silent, conflictFree_silent, by
    unfold State.SilentOutOfRound
    decide⟩

def inSlot (s : State) (x : Transmission) : State := { s with osc := { s.osc with slot := some x } }

/-- A retry in the slot, its header built, with the given attempts. -/
def retrying (attempts : Nat) : State :=
  sending (inSlot (withPeer (member .body) 3 { entry with openCredit := some { seq := 3, grant := 1, attempts := attempts } })
    (.creditRetry 3)) tx

/-- The station reads the header of peer 3 in the window of peer 9, with the given content of the slot. -/
theorem foreign_header (x : Transmission) :
    (window (inSlot (member .header) x) 9).AtForeignHeader (encodeHeader hdr) hdr := by
  refine ⟨rfl, rfl, rfl, ⟨9, rfl, by decide⟩, Or.inl rfl, by decide, ?_⟩
  show lineBytes 7 (encodeHeader hdr) = encodeHeader hdr
  decide

/-- The three ways to leave: each from a state with each content of the slot. -/
theorem test_meets_WithdrawalSettlesTheSlot_leaving (x : Transmission) :
    (window (inSlot (member .header) x) 9).resetAsserted = false ∧
    (window (inSlot (member .header) x) 9).readsLine = true ∧
    (∃ t, exec (.stuckLine .wdat) (window (inSlot (member .header) x) 9) = .next t) ∧
    (∃ t, exec (.headerEnd (encodeHeader hdr)) (window (inSlot (member .header) x) 9) = .next t) ∧
    ∃ t, (window (inSlot (member .header) x) 9).leaveRound .listening = t :=
  ⟨rfl, rfl, ⟨_, rfl⟩, ⟨_, rfl⟩, ⟨_, rfl⟩⟩

/-- A retry in the slot whose window has not started. -/
def retryWaits : State :=
  window (inSlot (withPeer (member .header) 3 { entry with openCredit := some { seq := 3, grant := 1, attempts := 2 } })
    (.creditRetry 3)) 9

/-- A frame at 3 attempts, at 0 with and without a cancel request, and each other content of the slot. -/
theorem test_meets_WithdrawalSettlesTheSlot :
    (member .body).readsLine = true ∧ (∃ t, exec (.stuckLine .wdat) (member .body) = .next t) ∧
    (put (member .body) 7 (.sending { sent with attempts := 3 } false)).osc.slot = some (.frame 7) ∧
    (put (member .body) 7 (.sending msg true)).frame 7 = .sending msg true ∧
    (inSlot (member .header) (.newCredit 3 none)).osc.slot = some (.newCredit 3 none) ∧
    (inSlot (member .body) (.newCredit 3 (some { seq := 3, grant := 1 }))).osc.slot =
      some (.newCredit 3 (some { seq := 3, grant := 1 })) ∧
    (retrying 3).osc.slot = some (.creditRetry 3) ∧
    ((retrying 3).peer 3).openCredit = some { seq := 3, grant := 1, attempts := 3 } ∧ (retrying 3).fen.tx.isSome = true ∧
    (inSlot (member .body) .empty).osc.slot = some .empty ∧
    retryWaits.readsLine = true ∧ retryWaits.osc.slot = some (.creditRetry 3) ∧ retryWaits.fen.tx = none := by
  refine ⟨by decide, ⟨_, rfl⟩, ?_⟩
  decide

/-- With a reason and without one, with an OPEN of its own and one seen; a sweep timer one short, stopped and held. -/
theorem test_meets_OpenWithAReason :
    (at' base .member .idle).betweenRounds = true ∧ (at' base .member .idle).noOpen = true ∧
    ((at' base .member .idle).quietUntil 32).reasonToOpen = false ∧
    ({ member .idle with lif := { base.lif with openCount := some 0 } } : State).lif.openCount.isSome = true ∧
    ({ member .idle with lif := { base.lif with openSeen := true } } : State).lif.openSeen = true ∧
    (member .idle).betweenRounds = true ∧ (member .idle).noOpen = true ∧ (member .idle).reasonToOpen = true ∧
    base.readsLine = false ∧
    ({ base with rdc := { base.rdc with sweep := .running 65535 } } : State).rdc.sweep = .running 65535 ∧
    base.rdc.sweep = .stopped ∧ (at' base .observing .idle).rdc.participation = .observing := by decide

theorem test_meets_EdgesOnTheIdleLine :
    base.rdc.stage = .idle ∧ base.noOpen = true ∧
    ({ base with lif := { base.lif with openSeen := true } } : State).lif.openSeen = true ∧
    ({ base with lif := { base.lif with wdat := .low } } : State).rdc.stage = .idle ∧
    ({ base with lif := { base.lif with wdat := .low } } : State).lif.openCount = none ∧
    ({ base with lif := { base.lif with wdat := .low } } : State).lif.wdat = .low ∧
    (member .body).rdc.stage ≠ .idle ∧ (member .body).noOpen = true ∧ (member .body).lif.wclk = .high ∧
    (member .body).lif.wdat = .high ∧ (member .body).lif.openCount = none ∧ (member .body).lif.wdatDrive = false := by
  decide

/-- A rejoin, a first join, and a MEMBER that does not join. -/
theorem test_meets_RoundStartActs_joins :
    ({ member .idle with rdc := { (member .idle).rdc with rejoin := true } } : State).rdc.participation = .member ∧
    ({ member .idle with rdc := { (member .idle).rdc with rejoin := true } } : State).rdc.rejoin = true ∧
    (at' base .observing .carry).rdc.participation = .observing ∧
    ((at' base .observing .carry).rdc.joinPending || (at' base .observing .carry).isObserving) = true ∧
    (member .idle).rdc.rejoin = false := by decide

/-- A MEMBER that holds its own OPEN, one that has seen one, and an OBSERVING station at the CARRY cell. -/
theorem test_meets_RoundStartActs :
    (member .idle).betweenRounds = true ∧
    ({ member .idle with lif := { base.lif with openCount := some 8 } } : State).lif.openCount.isSome = true ∧
    ({ member .idle with lif := { base.lif with openSeen := true } } : State).noOpen = false ∧
    (member .carryCell).rdc.stage = .carryCell ∧ (at' base .observing .carry).isObserving = true ∧
    (at' base .observing .carry).rdc.stage = .carry := by decide

theorem test_meets_CarryAndRoundEnd :
    (member .carry).rdc.participation = .member ∧ (member .carry).rdc.stage = .carry ∧
    (member .carryCell).rdc.stage = .carryCell ∧ (member .carryCell).lif.wdatDrive = false ∧
    (at' base .observing .carry).isObserving = true ∧ (at' base .observing .carry).lif.wdatDrive = false := by decide

theorem test_meets_LeadFieldEnd :
    (member .lead).readsLine = true ∧ (member .lead).rdc.stage = .lead ∧ (at' base .observing .lead).readsLine = true := by
  decide

/-- Missed 1 and 2 on the two sides of the limit; ABSENT peers; JOINING, and OBSERVING with its own cell HIGH. -/
theorem test_meets_PresenceFieldEnd :
    (member .presence).rdc.stage = .presence ∧ ((member .presence).peer 0).present = false ∧
    ((member .presence).peer 3).present = true ∧ (0xFFF7 : Cells).getLsbD 3 = false ∧ (0xFFF7 : Cells).getLsbD 9 = true ∧
    ((withPeer (member .presence) 9 { entry with missed := 1 }).peer 9).missed + 1 < 3 ∧
    3 ≤ ((withPeer (member .presence) 9 { entry with missed := 2 }).peer 9).missed + 1 ∧
    (at' base .joining .presence).rdc.participation = .joining ∧
    (at' base .observing .presence).rdc.participation = .observing ∧ (0xFFF7 : Cells).getLsbD 5 = true ∧
    (0xFFDF : Cells).getLsbD 5 = false ∧ (at' base .observing .presence).own = 5 := by decide

/-- Peer 9 at its third miss, with a frame queued to it, one of peer 3's ARRIVED. -/
def losing : State :=
  put (put (at' (withPeer (withPeer base 3 entry) 9 { entry with missed := 2 }) .member .presence) 7
    (.queued { msg with peer := some 9 })) 8 (.arrived inMsg)

theorem test_meets_PresenceFieldEnd_lost :
    losing.Placed ∧ losing.rdc.stage = .presence ∧ losing.rdc.participation = .member ∧
    (losing.peer 9).present = true ∧ (0xFFF7 : Cells).getLsbD 9 = true ∧ 3 ≤ (losing.peer 9).missed + 1 ∧
    losing.frame 7 = .queued { msg with peer := some 9 } ∧ losing.frame 8 = .arrived inMsg := by
  unfold State.Placed
  decide

/-- Peer 3 joins, with a frame sent once queued to it and one of its frames HELD. -/
def joined : State :=
  put (put (put (member .join) 7 (.queued sent)) 8 (.held inMsg)) 9 (.queued notice)

theorem test_meets_JoinFieldEndAtMemberAndObserver_frames :
    joined.Placed ∧ joined.rdc.stage = .join ∧ joined.rdc.participation = .member ∧ joined.frame 7 = .queued sent ∧
    joined.frame 8 = .held inMsg ∧ (0xFFF7 : Cells).getLsbD 3 = false ∧ joined.resetAsserted = false := by
  unfold State.Placed
  decide

theorem test_joinFieldEnd_frames : gives (.joinFieldEnd 0xFFF7) joined (fun t =>
    t.frame 7 == .queued { sent with openSeq := none } && t.frame 8 == .held { inMsg with creditBearing := false } &&
    t.frame 9 == .queued notice && t.osc == joined.osc) = true := by decide

theorem test_meets_JoinFieldEndAtMemberAndObserver :
    (at' base .observing .join).rdc.stage = .join ∧ (at' base .observing .join).rdc.participation = .observing ∧
    (member .join).rdc.stage = .join ∧ (member .join).rdc.participation = .member ∧ (3 : Pos) ≠ (member .join).own ∧
    (0xFFF7 : Cells).getLsbD 3 = false ∧ (0xFFF7 : Cells).getLsbD 9 = true := by decide

/-- JOINING from MEMBER: peer 3 seen in PRESENCE, peer 9 PRESENT and not seen, peer 0 neither, a frame queued to each. -/
def ownJoining : State :=
  let s := put (put (put (at' (withPeer (withPeer base 3 entry) 9 entry) .joining .join) 7 (.queued sent)) 8
    (.queued { msg with peer := some 9, postNo := 1 })) 10 (.queued { msg with peer := some 0, postNo := 2 })
  { s with rdc := { s.rdc with presence := 0xFFD7, joinFromMember := true } }

theorem test_meets_OwnJoinRoundSetsEveryEntry :
    ownJoining.resetAsserted = false ∧ ownJoining.rdc.stage = .join ∧ ownJoining.rdc.participation = .joining ∧
    ownJoining.Placed ∧ ownJoining.rdc.presence.getLsbD 3 = false ∧ ownJoining.frame 7 = .queued sent ∧
    ownJoining.rdc.presence.getLsbD 9 = true ∧ (ownJoining.peer 9).present = true ∧
    ownJoining.rdc.presence.getLsbD 0 = true ∧ (ownJoining.peer 0).present = false ∧
    (0xFFFF : Cells).getLsbD 0 = true := by
  unfold State.Placed
  decide

theorem test_meets_LossAndReinitialisation :
    full.Placed ∧ (3 : Pos) ≠ full.own ∧ full.frame 1 = .queued msg ∧ msg.peer = some 3 ∧
    (full.frame 4).queuedTo 3 = false := by
  refine ⟨full_placed, ?_⟩
  decide

theorem test_meets_ChoiceAtTheClaimCell :
    full.frame 1 = .queued msg ∧ msg.peer = some 3 ∧ (put base 7 (.queued notice)).frame 7 = .queued notice ∧
    notice.peer = none ∧ (member .claim).bestCredit = some 3 ∧ base.bestCredit = none ∧
    (put (member .claim) 7 (.queued { msg with cls := .urgent })).osc.urgent.find?
      (put (member .claim) 7 (.queued { msg with cls := .urgent })).sendable = some 7 ∧
    (retrying 1).osc.urgent.find? (retrying 1).sendable = none ∧
    (retrying 1).peerPositions.find? (fun p => ((retrying 1).peer p).openCredit.isSome) = some 3 ∧
    base.peerPositions.find? (fun p => (base.peer p).openCredit.isSome) = none := by decide

theorem test_meets_OwnClaimCell :
    (member .claim).rdc.participation = .member ∧ (member .claim).rdc.stage = .claim ∧ (member .claim).osc.slot = none ∧
    (put (member .claim) 7 (.queued { msg with cls := .urgent })).choice = some (.frame 7) ∧
    (put (member .claim) 7 (.queued { msg with cls := .urgent })).frame 7 = .queued { msg with cls := .urgent } ∧
    (member .claim).choice = some (.newCredit 3 none) ∧ (∀ f, Transmission.newCredit 3 none ≠ .frame f) ∧
    (at' base .member .claim).choice = none := by decide

/-- A MEMBER that drove its cell, and an OBSERVING station; cells with and without a claimant. -/
theorem test_meets_ClaimFieldEnd :
    (inSlot (member .claimed) .empty).rdc.participation = .member ∧ (inSlot (member .claimed) .empty).rdc.stage = .claimed ∧
    (inSlot (member .claimed) .empty).rdc.leadView = some 4 ∧ (inSlot (member .claimed) .empty).osc.slot ≠ none ∧
    (at' base .observing .claim).rdc.stage = .claim ∧ (0x7FFF : Cells).getLsbD 15 = false ∧
    (0xFFFF : Cells).getLsbD 0 = true := by decide

/-- The own window at its first header cell, with a frame in the slot. -/
def opening (q : Posted) (c : Bool) : State := window (put (member .header) 7 (.sending q c)) 5

theorem test_meets_WindowStartOfAPoolFrame :
    (opening msg false).resetAsserted = false ∧ (opening msg false).ownWindow = true ∧
    (opening msg false).rdc.stage = .header ∧ (opening msg false).fen.tx = none ∧
    (opening msg false).osc.slot = some (.frame 7) ∧ (opening msg false).frame 7 = .sending msg false ∧
    (3 : Pos) ≠ (opening msg false).own ∧ msg.openSeq = none ∧
    (opening sent false).frame 7 = .sending sent false ∧ sent.openSeq = some { seq := 3, grant := 1 } ∧
    (opening notice false).frame 7 = .sending notice false ∧ notice.peer = none := by decide

theorem test_meets_CancelCheckAtWindowStart :
    (opening sent true).resetAsserted = false ∧ (opening sent true).ownWindow = true ∧
    (opening sent true).rdc.stage = .header ∧ (opening sent true).fen.tx = none ∧
    (opening sent true).osc.slot = some (.frame 7) ∧ (opening sent true).frame 7 = .sending sent true ∧
    sent.peer = some 3 ∧ (3 : Pos) ≠ (opening sent true).own := by decide

/-- Owed 1 and owed 0, a retry, and EMPTY. -/
theorem test_meets_WindowStartOfACreditFrame :
    (window (inSlot (member .header) (.newCredit 3 none)) 5).ownWindow = true ∧
    1 ≤ min ((member .header).peer 3).owed (member .header).spare ∧
    min ((withPeer (member .header) 3 { entry with owed := 0 }).peer 3).owed
      (withPeer (member .header) 3 { entry with owed := 0 }).spare = 0 ∧
    (window (retrying 1) 5).osc.slot = some (.creditRetry 3) ∧
    (window (inSlot (member .header) .empty) 5).osc.slot = some .empty := by decide

/-- Header cell 1 of 0x53 is released, cell 0 driven; cell 56 of the body is the first of payload byte 1. -/
theorem test_meets_CollisionStopsTheClaimant :
    (sending (window (member .header) 5) tx).InOwnWindow tx ∧ tx.collidedAt = none ∧ 56 < 8 * tx.bytes.length ∧
    (member .header).rdc.stage = .header ∧ (member .body).rdc.stage = .body ∧ tx.bit 1 = true ∧ tx.bit 0 = false ∧
    tx.bit 63 = true ∧ tx.bit 56 = false := by
  unfold State.InOwnWindow
  decide

/-- The own window with EMPTY in the slot, or a frame, and a transmit header. -/
def own (x : Tx) (y : Transmission) (stage : Stage) (streak : Nat) : State :=
  let s := sending (window (inSlot (member stage) y) 5) x
  { s with rdc := { s.rdc with streak := streak } }

theorem test_meets_EmptySettlementAndTheStreak :
    (own tx .empty .header 0).InOwnWindow tx ∧ (own tx .empty .header 0).osc.slot = some .empty ∧
    (own tx .empty .header 0).rdc.stage = .header ∧
    (own { tx with collidedAt := some 1 } .empty .mark 1).InOwnWindow { tx with collidedAt := some 1 } ∧
    (own { tx with collidedAt := some 1 } .empty .mark 1).rdc.streak + 1 < 3 ∧
    3 ≤ (own { tx with collidedAt := some 1 } .empty .mark 2).rdc.streak + 1 ∧
    (own tx (.newCredit 3 none) .body 0).osc.slot = some (.newCredit 3 none) ∧
    Transmission.newCredit 3 none ≠ .empty ∧ (own tx (.newCredit 3 none) .body 0).rdc.stage = .body := by
  unfold State.InOwnWindow
  decide

theorem test_meets_HeaderRoundTrip :
    legalFields hdr = true ∧ readHeader (encodeHeader hdr) = (.good, some hdr) ∧
    (readHeader [0, 0, 0, 0, 0, 0, 0]).1 = .bad := by decide

/-- No legal header is seven bytes of 0x00: its destination would be its source. -/
theorem zeros_not_legal (h : HeaderFields) (hl : legalFields h = true) : [0, 0, 0, 0, 0, 0, 0] ≠ encodeHeader h := by
  intro e
  simp only [encodeHeader, headerBody, bytesOf16, List.cons_append, List.nil_append] at e
  injection e with e0 e
  injection e with e1 e
  have hs := h.source.isLt
  have hd := h.dest.isLt
  have hq := h.seq.isLt
  have h0 := congrArg BitVec.toNat e0
  have h1 := congrArg BitVec.toNat e1
  have hz : (0 : Byte).toNat = 0 := rfl
  rw [hz, BitVec.toNat_ofNat] at h0 h1
  have hc : classBit h.cls ≤ 1 := by cases h.cls <;> decide
  have heq : h.dest = h.source := Fin.ext (by omega)
  cases hk : h.kind with
  | message => simp [legalFields, hk, heq] at hl
  | credit => simp [hk, kindCode] at h1; omega
  | notice => simp [hk, kindCode] at h1; omega

/-- Another owner's window, and the own one after a collision; EMPTY, GOOD from the owner, GOOD from another, BAD. -/
theorem test_meets_HeaderEndFixesTheState :
    (window (member .header) 3).readsLine = true ∧ (window (member .header) 3).rdc.stage = .header ∧
    (window (member .header) 3).windowOwner = some 3 ∧ (window (member .header) 3).ownWindow = false ∧
    (own { tx with collidedAt := some 1 } .empty .header 0).ownCollided = true ∧
    (window (member .header) 3).headerRead [] = List.replicate 7 0xFF ∧
    (window (member .header) 3).headerRead (encodeHeader hdr) = encodeHeader hdr ∧ hdr.source = 3 ∧
    (window (member .header) 9).windowOwner = some 9 ∧
    (window (member .header) 3).headerRead [0, 0, 0, 0, 0, 0, 0] = [0, 0, 0, 0, 0, 0, 0] ∧
    ∀ h, legalFields h = true → [0, 0, 0, 0, 0, 0, 0] ≠ encodeHeader h := by
  refine ⟨by decide, by decide, by decide, by decide, by decide, by decide, by decide, by decide, by decide, by decide,
    zeros_not_legal⟩

/-- The mark cell after each header state; low phases of 1 and 2 cell-times lie on the two sides of the threshold. -/
theorem test_meets_MarkCellSizesTheWindow :
    (256 : Nat) ≤ 256 ∧ 256 < 257 ∧ (window (member .mark) 3).rdc.stage = .mark ∧ (member .header).readsLine = true ∧
    (window (member .mark) 3).ownWindow = false ∧ (window (member .mark) 3).fen.undo = none ∧
    (own { tx with header := emptyHeader, payload := [] } .empty .mark 0).InOwnWindow
      { tx with header := emptyHeader, payload := [] } ∧
    ({ tx with header := emptyHeader, payload := [] } : Tx).isEmpty = true ∧
    (window (member .mark) 5).osc.slot = none ∧ (window (member .mark) 5).fen.staging.headerState ≠ .bad ∧
    (own tx (.newCredit 3 none) .header 0).InOwnWindow tx ∧
    (own tx (.newCredit 3 none) .header 0).osc.slot ≠ some .empty ∧
    (reading (window (member .mark) 3) hdr).fen.staging.headerState = .good ∧
    (reading (window (member .mark) 3) hdr).fen.staging.fields = some hdr ∧
    (own { tx with collidedAt := some 1 } (.newCredit 3 none) .mark 0).ownCollided = true ∧
    ({ Staging.start 3 with headerState := .bad } : Staging).fields = none ∧
    (at' base .observing .mark).rdc.participation = .observing ∧
    ({ member .header with fen := { (member .header).fen with
      undo := some { window := some 0, staging := Staging.start 3, tx := none, start := none } } } : State).fen.undo ≠ none ∧
    (1 : Nat) < 2 := by
  unfold State.InOwnWindow
  decide

/-- Peer 9's window read EMPTY, the own window next, a new credit frame to peer 3 in the slot. -/
def afterEmpty : State :=
  let s := inSlot (member .mark) (.newCredit 3 none)
  { s with
    rdc := { s.rdc with claimants := [9, 5], window := some 0 }
    fen := { s.fen with staging := { Staging.start 9 with header := emptyHeader, headerState := .empty } } }

theorem test_meets_MarkUndoesTheWindowStart :
    afterEmpty.resetAsserted = false ∧ afterEmpty.windowOver = true ∧ afterEmpty.endedEmpty = true ∧ afterEmpty.Placed ∧
    (∀ p o, afterEmpty.osc.slot ≠ some (.newCredit p (some o))) ∧
    (∀ f q c p o, afterEmpty.frame f = .sending q c → q.peer = some p → q.openSeq = some o →
      (afterEmpty.peer p).openCredit = none ∧ (afterEmpty.peer p).sendSeq = o.seq) ∧
    ∃ a b t, exec .windowEnd afterEmpty = .next a ∧ exec .windowStart a = .next b ∧ exec (.markCell ⟨2, .high⟩) b = .next t := by
  have hf : ∀ f, afterEmpty.frame f = .free := by decide
  refine ⟨by decide, by decide, by decide, ?_, ?_, ?_, ⟨_, _, _, rfl, rfl, rfl⟩⟩
  · unfold State.Placed
    decide
  · intro p o h
    have hs : afterEmpty.osc.slot = some (.newCredit 3 none) := by decide
    rw [hs] at h
    simp at h
  · intro f q c p o h
    rw [hf f] at h
    cases h

/-- Peer 3's window at its frame check. -/
def judging (h : HeaderFields) : State := reading (window (member .body) 3) h

def creditHdr : HeaderFields := { hdr with kind := .credit, length := 0 }
def noticeHdr : HeaderFields := { hdr with kind := .notice, dest := 0, seq := 0, grant := 0 }

theorem test_meets_MessageStored :
    (judging hdr).AtFrameCheck hdr ∧ (judging hdr).drivesLine = true ∧
    (judging hdr).checkPasses hdr [1, 2] (goodCheck hdr) ∧ hdr.kind = .message ∧ hdr.dest = (judging hdr).own ∧
    hdr.source ≠ (judging hdr).own ∧ ((judging hdr).peer hdr.source).present = true ∧
    ((judging hdr).peer hdr.source).lastAccepted ≠ some hdr.seq ∧ 1 ≤ ((judging hdr).peer hdr.source).granted ∧
    (judging hdr).fpl.freeList ≠ [] := by
  unfold State.AtFrameCheck State.checkPasses
  decide

/-- Peer 3's window at its frame check, at a station with no peer, of a participation state. -/
def alone (part : Participation) (h : HeaderFields) : State := reading (window (at' base part .body) 3) h

/-- OBSERVING; ABSENT; a duplicate; no credit. -/
theorem test_meets_WindowsJudgedWithoutEffect_clauses :
    (alone .observing hdr).AtFrameCheck hdr ∧ (alone .observing hdr).drivesLine = false ∧
    (alone .member hdr).AtFrameCheck hdr ∧ (alone .member hdr).drivesLine = true ∧
    (alone .member hdr).checkPasses hdr [1, 2] (goodCheck hdr) ∧ hdr.dest = (alone .member hdr).own ∧
    ((alone .member hdr).peer 3).present = false ∧
    (judging { hdr with seq := 6 }).AtFrameCheck { hdr with seq := 6 } ∧
    (judging { hdr with seq := 6 }).checkPasses { hdr with seq := 6 } [1, 2] (goodCheck { hdr with seq := 6 }) ∧
    (withPeer (judging hdr) 3 { entry with granted := 0 }).AtFrameCheck hdr ∧
    (withPeer (judging hdr) 3 { entry with granted := 0 }).checkPasses hdr [1, 2] (goodCheck hdr) := by
  unfold State.AtFrameCheck State.checkPasses
  decide

/-- The others leave the own window alone; they drive cells that this claimant drives too; they drive cell 63, and no
compared cell before it. -/
theorem test_meets_WindowsJudgedWithoutEffect_compare :
    tx.firstCollision (emptyHeader ++ [0xFF, 0xFF] ++ [0xFF, 0xFF]) = none ∧
    tx.firstCollision (emptyHeader ++ [0x01, 0xFF] ++ [0xFF, 0xFF]) = none ∧
    tx.firstCollision (emptyHeader ++ [0xFE, 0xFF] ++ [0, 0]) = some 63 ∧ tx.collidedAt = none := by decide

/-- The own window at its frame check: not collided; collided with a BAD header; collided, and the header GOOD, with a
check that passes and one that fails. -/
theorem test_meets_WindowsJudgedWithoutEffect_own :
    (own tx (.newCredit 3 none) .body 0).InOwnWindow tx ∧ (own tx (.newCredit 3 none) .body 0).rdc.stage = .body ∧
    (own { tx with collidedAt := some 1 } (.newCredit 3 none) .body 0).InOwnWindow { tx with collidedAt := some 1 } ∧
    (own { tx with collidedAt := some 1 } (.newCredit 3 none) .body 0).fen.staging.fields = none ∧
    (reading (own { tx with collidedAt := some 1 } (.newCredit 3 none) .body 0) hdr).InOwnWindow
      { tx with collidedAt := some 1 } ∧
    (reading (own { tx with collidedAt := some 1 } (.newCredit 3 none) .body 0) hdr).fen.staging.fields = some hdr ∧
    (reading (own { tx with collidedAt := some 1 } (.newCredit 3 none) .body 0) hdr).checkPasses hdr [1, 2]
      (goodCheck hdr) ∧
    ¬ (reading (own { tx with collidedAt := some 1 } (.newCredit 3 none) .body 0) hdr).checkPasses hdr [1, 3]
      (goodCheck hdr) := by
  unfold State.InOwnWindow State.checkPasses
  decide

/-- Addressed elsewhere; a failed check of a MESSAGE and of a NOTICE. -/
theorem test_meets_WindowsJudgedWithoutEffect :
    (judging hdr).AtFrameCheck hdr ∧ (judging { hdr with dest := 6 }).AtFrameCheck { hdr with dest := 6 } ∧
    (judging noticeHdr).AtFrameCheck noticeHdr ∧ ¬ (judging hdr).checkPasses hdr [1, 3] (goodCheck hdr) ∧
    ¬ (judging noticeHdr).checkPasses noticeHdr [1, 3] (goodCheck noticeHdr) ∧
    ((judging { hdr with seq := 6 }).peer 3).lastAccepted = some 6 ∧
    ((withPeer (judging hdr) 3 { entry with granted := 0 }).peer 3).granted = 0 ∧
    ((withPeer (judging hdr) 3 { entry with granted := 0 }).peer 3).lastAccepted ≠ some hdr.seq := by
  unfold State.AtFrameCheck State.checkPasses
  decide

/-- No frame is spare. -/
def noSpare (s : State) : State := { s with fpl := { s.fpl with freeList := [] } }

/-- A CREDIT frame and a NOTICE from an ABSENT peer, and a NOTICE with spare 0. -/
theorem test_meets_CreditAndNoticeJudged_refused :
    (alone .member creditHdr).AtFrameCheck creditHdr ∧ (alone .member creditHdr).checkPasses creditHdr [] (goodCheck creditHdr) ∧
    (alone .member noticeHdr).AtFrameCheck noticeHdr ∧
    (alone .member noticeHdr).checkPasses noticeHdr [1, 2] (goodCheck noticeHdr) ∧
    (alone .member noticeHdr).drivesLine = true ∧ ((alone .member noticeHdr).peer 3).present = false ∧
    (noSpare (judging noticeHdr)).AtFrameCheck noticeHdr ∧
    (noSpare (judging noticeHdr)).checkPasses noticeHdr [1, 2] (goodCheck noticeHdr) ∧
    (noSpare (judging noticeHdr)).drivesLine = true ∧ (noSpare (judging noticeHdr)).spare = 0 := by
  unfold State.AtFrameCheck State.checkPasses
  decide

theorem test_meets_CreditAndNoticeJudged :
    (judging creditHdr).AtFrameCheck creditHdr ∧ (judging creditHdr).checkPasses creditHdr [] (goodCheck creditHdr) ∧
    creditHdr.dest = (judging creditHdr).own ∧ creditHdr.source ≠ (judging creditHdr).own ∧
    ((judging creditHdr).peer 3).lastAccepted ≠ some creditHdr.seq ∧
    ((judging { creditHdr with seq := 6 }).peer 3).lastAccepted = some 6 ∧
    (judging noticeHdr).AtFrameCheck noticeHdr ∧ (judging noticeHdr).checkPasses noticeHdr [1, 2] (goodCheck noticeHdr) ∧
    ((judging noticeHdr).peer 3).present = true ∧ 1 ≤ (judging noticeHdr).spare := by
  unfold State.AtFrameCheck State.checkPasses
  decide

/-- An entry for URGENT frames of peer 3 of any kind, whose masked tag bits are those of the header, one below its
required matches and at them. -/
theorem test_meets_WakeUnitCountsMatches :
    base.wku.doze = false ∧
    ({ settings0 := 0xE2, settings1 := 3, tagValue := 0x1200, tagMask := 0xFF00, counter := 1 } : WakeEntry).hits hdr = true ∧
    ({ settings0 := 0xE2, settings1 := 3, tagValue := 0x1300, tagMask := 0xFF00, counter := 2 } : WakeEntry).hits hdr = false ∧
    ({ settings0 := 0xE2, settings1 := 3, tagValue := 0x1200, tagMask := 0xFF00, counter := 1 } : WakeEntry).wakes hdr = true := by
  decide

/-- Peer 3's window, judged with a decision. -/
def decided (d : Decision) : State :=
  { window (member .judged) 3 with fen := { (member .judged).fen with decision := some d } }

/-- The own window after its EMPTY has been settled. -/
def ownEmptySettled : State := sending (window (member .mark) 5) { header := emptyHeader, payload := [], collidedAt := none }

/-- The last claimant of two, the first, a silent decision, and the own window settled; after an EMPTY header, read and
sent. -/
theorem test_meets_AnswerCellsAndWindowEnd :
    (decided .accept).rdc.participation = .member ∧ (decided .accept).rdc.stage = .judged ∧
    (decided .accept).ownWindow = false ∧ (decided .accept).fen.decision = some .accept ∧
    (decided .silent).readsLine = true ∧ (decided .silent).fen.decision = some .silent ∧
    afterEmpty.readsLine = true ∧ afterEmpty.rdc.window = some 0 ∧ afterEmpty.rdc.stage = .mark ∧
    afterEmpty.ownWindow = false ∧ afterEmpty.fen.staging.headerState = .empty ∧
    ownEmptySettled.readsLine = true ∧ ownEmptySettled.rdc.window = some 0 ∧ ownEmptySettled.rdc.stage = .mark ∧
    ownEmptySettled.osc.slot = none ∧
    ownEmptySettled.InOwnWindow { header := emptyHeader, payload := [], collidedAt := none } ∧
    ({ header := emptyHeader, payload := [], collidedAt := none } : Tx).isEmpty = true ∧
    (window (member .answered) 3).readsLine = true ∧ (window (member .answered) 3).rdc.window = some 0 ∧
    (window (member .answered) 3).rdc.claimants[0 + 1]? = some 12 ∧
    ({ (window (member .answered) 3).rdc with claimants := [3] } : Rdc).claimants[0 + 1]? = none ∧
    (window (member .judged) 3).fen.decision = none ∧ (window (member .body) 5).ownWindow = true ∧
    (window (member .body) 5).osc.slot = none := by
  unfold State.InOwnWindow
  decide

/-- A MESSAGE on the line in the own window. -/
def onLine (q : Posted) (c : Bool) (x : Tx) : State := sending (window (put (member .body) 7 (.sending q c)) 5) x

theorem test_meets_FinalAnswerToAMessage :
    (onLine sent true tx).InOwnWindow tx ∧ tx.collidedAt = none ∧ (onLine sent true tx).rdc.stage = .body ∧
    (onLine sent true tx).osc.slot = some (.frame 7) ∧ (onLine sent true tx).frame 7 = .sending sent true ∧
    sent.peer = some 3 ∧ (3 : Pos) ≠ (onLine sent true tx).own ∧ sent.openSeq = some { seq := 3, grant := 1 } := by
  unfold State.InOwnWindow
  decide

/-- Attempts of 2 and 3 lie on the two sides of the limit; a collision, and equal answer cells. -/
theorem test_meets_FailedAttemptOfAMessage :
    (onLine { sent with attempts := 2 } false tx).InOwnWindow tx ∧ (Level.low = Level.low) ∧
    (onLine { sent with attempts := 2 } false tx).Placed ∧
    (onLine { sent with attempts := 2 } false tx).frame 7 = .sending { sent with attempts := 2 } false ∧
    ({ sent with attempts := 2 } : Posted).attempts + 1 < 4 ∧ 4 ≤ ({ sent with attempts := 3 } : Posted).attempts + 1 ∧
    (onLine sent true { tx with collidedAt := some 3 }).InOwnWindow { tx with collidedAt := some 3 } ∧
    (onLine sent true tx).Placed := by
  refine ⟨?_, by decide, ?_, by decide, by decide, by decide, ?_, ?_⟩
  · unfold State.InOwnWindow
    decide
  · unfold State.Placed
    decide
  · unfold State.InOwnWindow
    decide
  · unfold State.Placed
    decide

theorem test_meets_OutcomeOfANotice :
    (onLine notice false tx).InOwnWindow tx ∧ (onLine notice false tx).frame 7 = .sending notice false ∧
    notice.peer = none ∧
    (onLine notice true { tx with collidedAt := some 3 }).InOwnWindow { tx with collidedAt := some 3 } := by
  unfold State.InOwnWindow
  decide

theorem test_meets_AnswerToACreditFrame :
    (own tx (.newCredit 3 (some { seq := 3, grant := 1 })) .body 0).InOwnWindow tx ∧
    (own tx (.newCredit 3 (some { seq := 3, grant := 1 })) .body 0).osc.slot = some (.newCredit 3 (some { seq := 3, grant := 1 })) ∧
    (window (retrying 3) 5).InOwnWindow tx ∧ (window (retrying 3) 5).osc.slot = some (.creditRetry 3) ∧
    ((window (retrying 3) 5).peer 3).openCredit = some { seq := 3, grant := 1, attempts := 3 } ∧
    ((window (retrying 2) 5).peer 3).openCredit = some { seq := 3, grant := 1, attempts := 2 } ∧
    (3 : Pos) ≠ (window (retrying 3) 5).own := by
  unfold State.InOwnWindow
  decide

/-! The invariants, at a state with a frame in each place. -/

theorem test_meets_MemoryAndOwnEntryKept :
    (described full 56).MemoryOk ∧ full.OwnEntryReset ∧ ∃ t, step full = .next t := by
  refine ⟨?_, ?_, ⟨_, rfl⟩⟩
  · unfold State.MemoryOk
    decide
  · unfold State.OwnEntryReset
    decide

theorem full_posted : ∀ f, (full.frame f).posted? = if f = 1 then some msg else none := by decide

theorem test_meets_FramesStayInTheirPlaces :
    full.Placed ∧ ({ full with osc := { full.osc with nextPost := 1 } } : State).QueuesInPostOrder := by
  refine ⟨full_placed, ⟨full_placed, ?_, ?_, by decide, by decide, ?_⟩⟩
  · intro f q h
    have h' := full_posted f
    simp only [State.frame] at h h'
    rw [h'] at h
    split at h
    · cases h
      decide
    · cases h
  · intro f g p q hfg h1 h2
    have hf := full_posted f
    have hg := full_posted g
    simp only [State.frame] at h1 h2 hf hg
    rw [hf] at h1
    rw [hg] at h2
    split at h1
    · split at h2
      · rename_i a b
        exact absurd (a.trans b.symm) hfg
      · cases h2
    · cases h1
  · intro was h
    cases h

theorem test_meets_LimitsKept : full.OutboundBounded ∧ full.AttemptsBounded ∧ full.CountsInRange := by
  refine ⟨?_, ⟨by decide, ?_, ?_, ?_⟩, ?_⟩
  · unfold State.OutboundBounded
    decide
  · intro f q h
    rw [full_posted f] at h
    split at h
    · cases h
      decide
    · cases h
  · intro p o h
    have hn : ∀ p, (full.peer p).openCredit = none := by decide
    rw [hn p] at h
    cases h
  · intro was h
    cases h
  · refine ⟨by decide, by decide, by decide, by decide, ?_, by decide, by decide, by decide, by decide, by decide,
      by decide, by decide⟩
    intro c h
    cases h

theorem test_meets_SilenceAndWiresKept :
    conflictStuck.SilentOutOfRound ∧ conflictStuck.WiresConsistent ∧ full.WiresConsistent ∧ full.WakeRests := by
  refine ⟨conflictStuck_silent, conflictStuck_wires, ?_, ?_⟩
  · refine ⟨?_, ?_, ?_, ?_, ?_, ?_, ?_, ?_⟩ <;> decide
  · unfold State.WakeRests
    decide

/-- The own window begun in the cell after an EMPTY header: a new credit frame to peer 3 takes a grant of 1, and a mark
would undo it. -/
def creditBegun : State := afterEmpty.advanceWindow.beginOwnWindow

/-- The drive of its cell 0 ends with that cell where a mark makes it fill: WINDOW_END finds it released (08 R140). -/
theorem test_mark_ends_the_drive : creditBegun.lif.wdatDrive = true ∧ gives (.markCell ⟨2, .high⟩) creditBegun (fun t =>
    t.lif.wdatDrive && gives .windowEnd t (fun u => !u.lif.wdatDrive && u.rdc.window == some 1)) = true := by decide

/-- The own window begun in that cell with EMPTY, which releases its cell 0. -/
def emptyBegun : State := { afterEmpty with osc := { afterEmpty.osc with slot := some .empty } }.advanceWindow.beginOwnWindow

/-- Cell 56 released and driven; cell 0 after an unmarked EMPTY driven and released. -/
theorem test_meets_MarkCellSizesTheWindow_compare :
    ({ tx with payload := [0x80] } : Tx).bit 56 = true ∧ 56 < 8 * ({ tx with payload := [0x80] } : Tx).bytes.length ∧
    tx.bit 56 = false ∧ creditBegun.fen.undo ≠ none ∧ creditBegun.rdc.stage = .header ∧
    (creditBegun.fen.tx.map fun x => x.bit 0) = some false ∧ emptyBegun.fen.undo ≠ none ∧
    emptyBegun.rdc.stage = .header ∧ emptyBegun.ownWindow = true ∧
    emptyBegun.fen.tx = some { header := emptyHeader, payload := [], collidedAt := none } ∧
    ({ header := emptyHeader, payload := [], collidedAt := none } : Tx).bit 0 = true := by
  decide

/-- EMPTY collides at its cell 0 there (07 R130). -/
theorem test_markCell_collides_first : gives (.markCell ⟨0, .low⟩) emptyBegun (fun t =>
    t.fen.tx == some { header := emptyHeader, payload := [], collidedAt := some 0 } && t.fen.undo == none) = true := by
  decide

theorem creditBegun_free : ∀ f, creditBegun.frame f = .free := by decide

theorem creditBegun_slot : creditBegun.osc.slot = some (.newCredit 3 (some { seq := 3, grant := 1 })) := by decide

theorem creditBegun_undo : creditBegun.fen.undo = some
    { window := some 0, staging := afterEmpty.fen.staging, tx := none, start := some (.creditBuilt 3 1 false) } := by
  decide

theorem creditBegun_covered (p : Pos) : creditBegun.SequenceCovered p := by
  have hc : ∀ p, (creditBegun.peer p).openCredit = none := by decide
  refine ⟨?_, ?_, ?_, ?_, ?_⟩
  · revert p
    decide
  · revert p
    decide
  · intro f q o h
    rw [creditBegun_free f] at h
    cases h
  · intro o h
    rw [hc p] at h
    cases h
  · intro o h
    rw [creditBegun_slot] at h
    cases h
    decide

theorem creditBegun_undoCovered : creditBegun.UndoCovered := by
  intro u h
  rw [creditBegun_undo] at h
  cases h
  refine ⟨by decide, ⟨0, rfl, fun _ => by decide⟩, ?_, ?_, ?_⟩
  · intro f p k c h
    cases h
  · intro f was c p h
    cases h
  · intro p k c h
    cases h
    exact Or.inr ⟨_, creditBegun_slot, rfl⟩

theorem creditBegun_kept : creditBegun.CreditKept := by
  refine ⟨?_, ?_, fun p => ⟨?_, ?_, creditBegun_covered p⟩, ?_, ?_, creditBegun_undoCovered⟩
  · unfold State.Placed
    decide
  · unfold State.OwnEntryReset
    decide
  · revert p
    unfold State.ConservedAt
    decide
  · revert p
    unfold PeerEntry.Tied
    decide
  · unfold State.ReserveCovered
    decide
  · intro _
    exact ⟨by decide, Or.inr ⟨1, 1, by decide, by decide, by decide, Or.inl (by decide)⟩⟩

/-- The grant stands in pending; the mark cell that follows keeps it or undoes it. -/
theorem test_meets_CreditKeptByEveryStepAndRun :
    ({ creditBegun with pending := [.markCell ⟨2, .high⟩] } : State).CreditKept ∧ (creditBegun.peer 3).pending = 1 ∧
    ∃ t, step { creditBegun with pending := [.markCell ⟨2, .high⟩] } = .next t :=
  ⟨creditBegun_kept, by decide, ⟨_, rfl⟩⟩

end Sys2Proof.Tests
end

section
/-!
SUPPORT. The acts of the station. A step is a sequence of acts, each of which changes one block within its ranges, moves
one frame from its place to another (01 Table 1-3), or resets the station. `step_acts` says it once, for all
commands and for the cell-time; an invariant of every step is then a case analysis over the acts.
-/

namespace Sys2Proof.Machine

/-! ## Ranges, block by block -/

/-- The counts of the Line Interface (08 Table 8-1, R143). -/
structure Lif.InRange (l : Lif) : Prop where
  idle : l.idle ≤ Config.settleGap
  clockLow : l.clockLow ≤ Config.clockStuckAbove + 1
  dataLow : l.dataLow ≤ Config.dataStuckAbove + 1
  cellTimer : l.cellTimer ≤ Config.cellTimerMax
  openCount : ∀ c, l.openCount = some c → c ≤ Config.openDuration

/-- The counts of the Round Controller (06 Table 6-1). -/
structure Rdc.InRange (r : Rdc) : Prop where
  chain : r.chain ≤ Config.chainLimit
  streak : r.streak < Config.maxStreak
  sweep : r.sweep.count ≤ Config.sweepInterval

/-- The match counters (10 Table 10-1). -/
def Wku.InRange (w : Wku) : Prop := ∀ n : Fin 3, w.entries[n].counter ≤ 15

/-! ## Records -/

/-- The places of the frames that are posted and not done. -/
def FramePlace.isPosted (p : FramePlace) : Bool :=
  match p with
  | .urgentQueue | .routineQueue | .slot => true
  | .freeList | .fillingSet | .completionQueue | .inboundQueue | .heldSet => false

/-- A record that stands in the place, the post order and the attempts of another. -/
structure FrameRecord.StandsAs (r r' : FrameRecord) : Prop where
  place : r.place = r'.place
  postNo : r.postNo = r'.postNo
  attempts : r.attempts = r'.attempts

theorem FrameRecord.StandsAs.refl (r : FrameRecord) : r.StandsAs r := ⟨rfl, rfl, rfl⟩

/-- The place of a queue (01 Table 1-2). -/
def FrameClass.place (c : FrameClass) : FramePlace :=
  match c with
  | .urgent => .urgentQueue
  | .routine => .routineQueue

/-! ## Entries -/

/-- What an act may make of p's entry: missed and held within their ranges or not above what they were, and an open
credit frame with attempts below 4, or with those of the one before, or of a posted frame (02 R41). -/
structure State.EntryMayBe (s : State) (p : Pos) (e : PeerEntry) : Prop where
  missed : e.missed ≤ Config.maxMissed ∨ e.missed = (s.peer p).missed
  held : e.held ≤ s.c0 ∨ e.held ≤ (s.peer p).held
  openCredit : ∀ o, e.openCredit = some o → o.attempts < Config.maxAttempts ∨ (s.peer p).openCredit = some o ∨
    ∃ f q, (s.frame f).posted? = some q ∧ q.attempts = o.attempts

/-! ## Acts -/

/-- One act of the station. -/
inductive Act : State → State → Prop where
  | aside (s : State) (asserted : Bool) (pending : List Instr) :
      Act s { s with resetAsserted := asserted, pending := pending }
  | lif (s : State) (l : Lif) (straps : l.straps = s.lif.straps) (counts : s.lif.InRange → l.InRange) :
      Act s (s.withLif l)
  | rdc (s : State) (r : Rdc) (counts : s.rdc.InRange → r.InRange) : Act s (s.withRdc r)
  | fen (s : State) (e : Fen) (undone : e.undoneFrame = none ∨ e.undoneFrame = s.fen.undoneFrame) :
      Act s (s.withFen e)
  | lpt (s : State) (x : Lpt) (further : s.lpt.further ≤ Config.furtherMax → x.further ≤ Config.furtherMax) :
      Act s (s.withLpt x)
  | wku (s : State) (w : Wku) (counters : s.wku.InRange → w.InRange) : Act s (s.withWku w)
  | creditLast (s : State) (flag : Bool) : Act s (s.setCreditLast flag)
  /-- The slot changes, and holds no frame before it or after. -/
  | slot (s : State) (x : Option Transmission)
      (left : ∀ f, s.osc.slot = some (.frame f) → (s.frame f).place ≠ .slot)
      (entered : ∀ f, x ≠ some (.frame f)) : Act s (s.setSlot x)
  | entry (s : State) (p : Pos) (e : PeerEntry) (may : s.EntryMayBe p e) : Act s (s.setPeer p e)
  | byte (s : State) (a : Nat) (v : Byte) (inside : a < Config.frameMemoryBytes) : Act s (s.writeMem a v)
  /-- Records change, and stand as before. -/
  | records (s : State) (frames : Vector FrameRecord 48) (stand : ∀ f : FrameNo, frames[f].StandsAs (s.frame f)) :
      Act s (s.withFpl { s.fpl with frames := frames })
  /-- FREE to FILLING (01 R8). -/
  | take (s : State) (f : FrameNo) (rest : List FrameNo) (head : s.fpl.freeList = f :: rest)
      (below : s.outboundOwned < Config.outboundLimit) :
      Act s { s with fpl := { s.fpl with frames := s.fpl.frames.set f .filling, freeList := rest } }
  /-- FREE to ARRIVED (01 R15). -/
  | accept (s : State) (f : FrameNo) (rest : List FrameNo) (r : InRecord) (image : List Byte)
      (head : s.fpl.freeList = f :: rest) (size : image.length = Config.frameBytes) :
      Act s { s with
        fpl := { s.fpl with frames := s.fpl.frames.set f (.arrived r), freeList := rest
                            mem := Memory.writeBytes s.fpl.mem (frameBase f) image }
        ibu := { inbound := s.ibu.inbound ++ [f] } }
  /-- ARRIVED to HELD (01 R16). -/
  | hold (s : State) (f : FrameNo) (rest : List FrameNo) (r : InRecord) (head : s.ibu.inbound = f :: rest)
      (was : s.frame f = .arrived r) :
      Act s { s with fpl := { s.fpl with frames := s.fpl.frames.set f (.held r) }, ibu := { inbound := rest } }
  /-- The inbound queue loses a head that is not ARRIVED. -/
  | stray (s : State) (f : FrameNo) (rest : List FrameNo) (head : s.ibu.inbound = f :: rest)
      (was : (s.frame f).place ≠ .inboundQueue) : Act s (s.withIbu { inbound := rest })
  /-- HELD to FREE (01 R17). -/
  | release (s : State) (f : FrameNo) (r : InRecord) (was : s.frame f = .held r) :
      Act s { s with
        fpl := { s.fpl with frames := s.fpl.frames.set f .free, freeList := s.fpl.freeList ++ [f] } }
  /-- DONE to FREE (01 R14). -/
  | pop (s : State) (f : FrameNo) (rest : List FrameNo) (d : DoneRecord) (head : s.osc.completion = f :: rest)
      (was : s.frame f = .done d) :
      Act s { s with
        fpl := { s.fpl with frames := s.fpl.frames.set f .free, freeList := s.fpl.freeList ++ [f] }
        osc := { s.osc with completion := rest } }
  /-- FILLING to DONE (01 R10). -/
  | reject (s : State) (f : FrameNo) (d : DoneRecord) (was : s.frame f = .filling)
      (attempts : d.attempts ≤ Config.maxAttempts) : Act s (s.complete f d)
  /-- FILLING to QUEUED, at the tail (01 R10, 02 R23). -/
  | post (s : State) (f : FrameNo) (q : Posted) (was : s.frame f = .filling) (number : q.postNo = s.osc.nextPost)
      (attempts : q.attempts < Config.maxAttempts) :
      Act s { s with
        fpl := { s.fpl with frames := s.fpl.frames.set f (.queued q) }
        osc := { (s.withQueue q.cls (s.queueOf q.cls ++ [f])).osc with nextPost := s.osc.nextPost + 1 } }
  /-- QUEUED to DONE (01 R12, R13). -/
  | finish (s : State) (f : FrameNo) (q : Posted) (d : DoneRecord) (was : s.frame f = .queued q)
      (attempts : d.attempts = q.attempts) : Act s ((s.unqueue f).complete f d)
  /-- QUEUED to SENDING (02 R28). -/
  | claim (s : State) (f : FrameNo) (q : Posted) (was : s.frame f = .queued q) (empty : s.osc.slot = none) :
      Act s (((s.unqueue f).setFrame f (.sending q false)).setSlot (some (.frame f)))
  /-- SENDING to DONE, with what a mark could bring back (02 R33, R42; 07 R128). -/
  | settle (s : State) (f : FrameNo) (q : Posted) (c : Bool) (d : DoneRecord) (x : Option Transmission) (e : Fen)
      (slot : s.osc.slot = some (.frame f)) (was : s.frame f = .sending q c) (entered : ∀ g, x ≠ some (.frame g))
      (attempts : d.attempts ≤ q.attempts + 1)
      (undone : e.undoneFrame = none ∨ e.undoneFrame = s.fen.undoneFrame ∨ e.undoneFrame = some q) :
      Act s (((s.setSlot x).complete f d).withFen e)
  /-- SENDING to QUEUED, in post order (02 R23, R36). -/
  | requeue (s : State) (f : FrameNo) (q : Posted) (c : Bool) (n : Nat) (slot : s.osc.slot = some (.frame f))
      (was : s.frame f = .sending q c) (attempts : n < Config.maxAttempts) :
      Act s ((s.setSlot none).enqueue f { q with attempts := n })
  /-- DONE to SENDING: a mark brings the frame back (07 R128). -/
  | restore (s : State) (f : FrameNo) (d : DoneRecord) (was : Posted) (e : Fen) (slot : s.osc.slot = some .empty)
      (done : s.frame f = .done d) (kept : s.fen.undoneFrame = some was) (undone : e.undoneFrame = none) :
      Act s { s with
        fpl := { s.fpl with frames := s.fpl.frames.set f (.sending was true) }
        osc := { s.osc with
          slot := some (.frame f), completion := s.osc.completion.filter (fun g => g ≠ f) }
        fen := e }
  | reset (s : State) (straps : Straps) (mem : List Host.Cell) (epoch : Nat) (x : Txn) (sdo : Option Byte)
      (pending : List Instr) (kept : mem = s.fpl.mem ∨ mem = []) :
      Act s (State.afterReset straps mem epoch x sdo pending)

/-- A sequence of acts. -/
abbrev Acts : State → State → Prop := Relation.ReflTransGen Act

end Sys2Proof.Machine
end

section
/-!
SUPPORT. Where frames are held and in which order, over the acts: one lemma for a frame that moves from one place to
another, one for the post numbers, one for the order of the queues.
-/

namespace Sys2Proof.Machine

/-- The frame in the slot, as a list. -/
def slotFrames (x : Option Transmission) : List FrameNo :=
  match x with
  | some (.frame f) => [f]
  | none | some (.creditRetry _) | some (.newCredit _ _) | some .empty => []

/-- What a place holds (01 Table 1-2). -/
def State.holding (s : State) (p : FramePlace) : List FrameNo :=
  match p with
  | .freeList => s.fpl.freeList
  | .fillingSet => s.fillingSet
  | .urgentQueue => s.osc.urgent
  | .routineQueue => s.osc.routine
  | .slot => slotFrames s.osc.slot
  | .completionQueue => s.osc.completion
  | .inboundQueue => s.ibu.inbound
  | .heldSet => s.heldSet

/-- The places that are lists of their own, and not the set of the records that name them. -/
def FramePlace.isList (p : FramePlace) : Bool :=
  match p with
  | .fillingSet | .heldSet => false
  | .freeList | .urgentQueue | .routineQueue | .slot | .completionQueue | .inboundQueue => true

/-- The lists after frame f has moved from place `a` to place `b`: `a` held it and the rest, `b` holds it and what it
held, every other place what it held. -/
def State.Handed (s t : State) (f : FrameNo) (a b : FramePlace) : Prop :=
  ∀ p, p.isList = true →
    if p = a then (s.holding p).Perm (f :: t.holding p)
    else if p = b then (t.holding p).Perm (f :: s.holding p)
    else t.holding p = s.holding p

/-- The post number that a frame holds while it is posted and not done. -/
def FrameRecord.number (r : FrameRecord) : Option Nat := if r.place.isPosted then some r.postNo else none

/-- The post number of a frame, or of the frame that a mark could bring back. -/
def State.numberOf (s : State) (k : Option FrameNo) : Option Nat :=
  match k with
  | some f => (s.frame f).number
  | none => s.fen.undoneFrame.map Posted.postNo

/-- Post numbers lie below the next one, and no two are the same. -/
structure State.Numbered (s : State) : Prop where
  below : ∀ k n, s.numberOf k = some n → n < s.osc.nextPost
  distinct : ∀ j k n, s.numberOf j = some n → s.numberOf k = some n → j = k

/-- Both queues are in post order. -/
def State.Sorted (s : State) : Prop :=
  ∀ c, (s.queueOf c).Pairwise fun f g => (s.frame f).postNo < (s.frame g).postNo

end Sys2Proof.Machine

namespace Sys2Proof.Laws

open Sys2Proof.Machine

/-! ## Records after one is set -/

/-- The records of a state whose record of f alone was set. -/
theorem frame_of_set {s t : State} {f : FrameNo} {r : FrameRecord} (h : t.fpl.frames = s.fpl.frames.set f r)
    (g : FrameNo) : t.frame g = if g = f then r else s.frame g := by
  have : t.frame g = (s.setFrame f r).frame g := by simp [State.frame, State.setFrame, State.withFpl, h]
  rw [this, frame_setFrame]

theorem frame_of_set_same {s t : State} {f : FrameNo} {r : FrameRecord} (h : t.fpl.frames = s.fpl.frames.set f r) :
    t.frame f = r := by simp [frame_of_set h]

theorem frame_of_set_other {s t : State} {f g : FrameNo} {r : FrameRecord} (h : t.fpl.frames = s.fpl.frames.set f r)
    (hg : g ≠ f) : t.frame g = s.frame g := by simp [frame_of_set h, hg]

/-- A frame that is queued anew has its record set. -/
theorem frames_enqueue (s : State) (f : FrameNo) (q : Posted) :
    (s.enqueue f q).fpl.frames = s.fpl.frames.set f (.queued q) := by
  rw [enqueue_only]

/-- What holds of every record, and of the one set, holds of every record after. -/
theorem forall_frame_of_set {P : FrameRecord → Prop} {s t : State} {f : FrameNo} {r : FrameRecord}
    (hs : ∀ g, P (s.frame g)) (h : t.fpl.frames = s.fpl.frames.set f r) (hr : P r) (g : FrameNo) : P (t.frame g) := by
  rw [frame_of_set h]
  split
  · exact hr
  · exact hs g

/-! ## Places and post numbers of records -/

@[simp] theorem place_free : FrameRecord.free.place = .freeList := rfl
@[simp] theorem place_filling : FrameRecord.filling.place = .fillingSet := rfl
@[simp] theorem place_sending (q : Posted) (c : Bool) : (FrameRecord.sending q c).place = .slot := rfl
@[simp] theorem place_done (d : DoneRecord) : (FrameRecord.done d).place = .completionQueue := rfl
@[simp] theorem place_arrived (r : InRecord) : (FrameRecord.arrived r).place = .inboundQueue := rfl
@[simp] theorem place_held (r : InRecord) : (FrameRecord.held r).place = .heldSet := rfl
@[simp] theorem place_queued (q : Posted) : (FrameRecord.queued q).place = q.cls.place := by
  cases h : q.cls <;> simp [FrameRecord.place, FrameClass.place, h]

theorem sending_of_place {r : FrameRecord} (h : r.place = .slot) : ∃ q c, r = .sending q c := by
  cases r with
  | sending q c => exact ⟨q, c, rfl⟩
  | queued q => cases hq : q.cls <;> simp [FrameClass.place, hq] at h
  | _ => cases h

theorem arrived_of_place {r : FrameRecord} (h : r.place = .inboundQueue) : ∃ i, r = .arrived i := by
  cases r with
  | arrived i => exact ⟨i, rfl⟩
  | queued q => cases hq : q.cls <;> simp [FrameClass.place, hq] at h
  | _ => cases h

theorem done_of_place {r : FrameRecord} (h : r.place = .completionQueue) : ∃ d, r = .done d := by
  cases r with
  | done d => exact ⟨d, rfl⟩
  | queued q => cases hq : q.cls <;> simp [FrameClass.place, hq] at h
  | _ => cases h

@[simp] theorem isPosted_classPlace (c : FrameClass) : c.place.isPosted = true := by cases c <;> rfl

/-- A record is posted where its place is one of the posted. -/
theorem posted?_isSome (r : FrameRecord) : r.posted?.isSome = r.place.isPosted := by
  cases r <;> simp [FrameRecord.posted?] <;> rfl

theorem postNo_of_posted {r : FrameRecord} {q : Posted} (h : r.posted? = some q) : r.postNo = q.postNo := by
  cases r <;> simp_all [FrameRecord.posted?, FrameRecord.postNo]

theorem attempts_of_posted {r : FrameRecord} {q : Posted} (h : r.posted? = some q) : r.attempts = q.attempts := by
  cases r <;> simp_all [FrameRecord.posted?, FrameRecord.attempts]

theorem isPosted_of_posted {r : FrameRecord} {q : Posted} (h : r.posted? = some q) : r.place.isPosted = true := by
  simp [← posted?_isSome, h]

theorem exists_posted {r : FrameRecord} (h : r.place.isPosted = true) : ∃ q, r.posted? = some q :=
  Option.isSome_iff_exists.mp ((posted?_isSome r).trans h)

/-- The post number of a posted record. -/
theorem number_eq_some_iff (r : FrameRecord) (n : Nat) :
    r.number = some n ↔ ∃ q, r.posted? = some q ∧ q.postNo = n := by
  unfold FrameRecord.number
  constructor
  · intro h
    split at h
    · rename_i hp
      obtain ⟨q, hq⟩ := exists_posted hp
      exact ⟨q, hq, (postNo_of_posted hq).symm.trans (Option.some.inj h)⟩
    · cases h
  · rintro ⟨q, hq, rfl⟩
    simp [isPosted_of_posted hq, postNo_of_posted hq]

theorem number_of_posted {r : FrameRecord} {q : Posted} (h : r.posted? = some q) : r.number = some q.postNo :=
  (number_eq_some_iff r _).mpr ⟨q, h, rfl⟩

theorem number_of_standsAs {r r' : FrameRecord} (h : r.StandsAs r') : r.number = r'.number := by
  simp [FrameRecord.number, h.place, h.postNo]

/-! ## Places -/

theorem forall_isList {P : FramePlace → Prop} : (∀ p, p.isList = true → P p) ↔
    P .freeList ∧ P .urgentQueue ∧ P .routineQueue ∧ P .slot ∧ P .completionQueue ∧ P .inboundQueue := by
  constructor
  · exact fun h => ⟨h _ rfl, h _ rfl, h _ rfl, h _ rfl, h _ rfl, h _ rfl⟩
  · rintro ⟨hfree, hurgent, hroutine, hslot, hcompletion, hinbound⟩ p hp
    cases p with
    | fillingSet | heldSet => cases hp
    | _ => assumption

@[simp] theorem slotFrames_none : slotFrames none = [] := rfl
@[simp] theorem slotFrames_frame (f : FrameNo) : slotFrames (some (.frame f)) = [f] := rfl
@[simp] theorem slotFrames_empty : slotFrames (some .empty) = [] := rfl

theorem mem_slotFrames (x : Option Transmission) (f : FrameNo) : f ∈ slotFrames x ↔ x = some (.frame f) := by
  rcases x with _ | ⟨_ | _ | _ | _⟩ <;> simp [slotFrames, eq_comm]

theorem nodup_slotFrames (x : Option Transmission) : (slotFrames x).Nodup := by
  rcases x with _ | ⟨_ | _ | _ | _⟩ <;> simp [slotFrames]

theorem slotFrames_of_no_frame {x : Option Transmission} (h : ∀ f, x ≠ some (.frame f)) : slotFrames x = [] :=
  List.eq_nil_iff_forall_not_mem.mpr fun f hf => h f ((mem_slotFrames x f).mp hf)

/-- The places, said of every place alike (01 R3): FILLING and HELD are sets of the records themselves. -/
theorem placed_iff (s : State) :
    s.Placed ↔
      ∀ p, p.isList = true → (s.holding p).Nodup ∧ ∀ f, f ∈ s.holding p ↔ (s.frame f).place = p := by
  constructor
  · rintro ⟨hfree, hurgent, hroutine, hcompletion, hinbound, hall⟩ p hp
    cases p with
    | freeList => exact ⟨hfree, fun f => (hall f).1⟩
    | urgentQueue => exact ⟨hurgent, fun f => (hall f).2.1⟩
    | routineQueue => exact ⟨hroutine, fun f => (hall f).2.2.1⟩
    | slot => exact ⟨nodup_slotFrames _, fun f => (mem_slotFrames _ f).trans (hall f).2.2.2.1⟩
    | completionQueue => exact ⟨hcompletion, fun f => (hall f).2.2.2.2.1⟩
    | inboundQueue => exact ⟨hinbound, fun f => (hall f).2.2.2.2.2⟩
    | fillingSet => cases hp
    | heldSet => cases hp
  · intro h
    exact ⟨(h .freeList rfl).1, (h .urgentQueue rfl).1, (h .routineQueue rfl).1, (h .completionQueue rfl).1,
      (h .inboundQueue rfl).1, fun f => ⟨(h .freeList rfl).2 f, (h .urgentQueue rfl).2 f, (h .routineQueue rfl).2 f,
        (mem_slotFrames _ f).symm.trans ((h .slot rfl).2 f), (h .completionQueue rfl).2 f,
        (h .inboundQueue rfl).2 f⟩⟩

theorem mem_holding_iff {s : State} (h : s.Placed) {p : FramePlace} (hp : p.isList = true) (f : FrameNo) :
    f ∈ s.holding p ↔ (s.frame f).place = p := ((placed_iff s).mp h p hp).2 f

theorem nodup_holding {s : State} (h : s.Placed) {p : FramePlace} (hp : p.isList = true) : (s.holding p).Nodup :=
  ((placed_iff s).mp h p hp).1

@[simp] theorem isList_classPlace (c : FrameClass) : c.place.isList = true := by cases c <;> rfl

theorem holding_classPlace (s : State) (c : FrameClass) : s.holding c.place = s.queueOf c := by cases c <;> rfl

/-- A frame stands in the queue of a class exactly when its record says so. -/
theorem mem_queueOf_iff {s : State} (h : s.Placed) (c : FrameClass) (f : FrameNo) :
    f ∈ s.queueOf c ↔ (s.frame f).place = c.place := by
  rw [← holding_classPlace]
  exact mem_holding_iff h (isList_classPlace c) f

/-- A frame whose record says so stands in the slot. -/
theorem slot_iff_place {s : State} (h : s.Placed) (f : FrameNo) :
    s.osc.slot = some (.frame f) ↔ (s.frame f).place = .slot := (h.2.2.2.2.2 f).2.2.2.1

/-- A list without duplicates is one of its members and the rest. -/
theorem perm_cons_filter {l : List FrameNo} (h : l.Nodup) {f : FrameNo} (hf : f ∈ l) :
    l.Perm (f :: l.filter (fun g => g ≠ f)) := by
  have hp := List.perm_cons_erase hf
  rw [h.erase_eq_filter] at hp
  simpa only [bne_iff_ne, ne_eq, decide_not, bne, beq_eq_decide] using hp

/-- The lists and the places are unchanged. -/
theorem placed_of_same {s t : State} (h : s.Placed) (hl : ∀ p, p.isList = true → t.holding p = s.holding p)
    (hf : ∀ f, (t.frame f).place = (s.frame f).place) : t.Placed := by
  rw [placed_iff] at h ⊢
  intro p hp
  rw [hl p hp]
  exact ⟨(h p hp).1, fun f => by rw [(h p hp).2 f, hf f]⟩

/-- A frame that moves with its record is in its place, and so is every other. -/
theorem placed_of_handed {s t : State} (h : s.Placed) {f : FrameNo} {r : FrameRecord} {a : FramePlace}
    (hf : t.fpl.frames = s.fpl.frames.set f r) (ha : (s.frame f).place = a) (hne : r.place ≠ a)
    (hl : s.Handed t f a r.place) : t.Placed := by
  rw [placed_iff]
  intro p hp
  have hnd := nodup_holding h hp
  have hmem := fun g => mem_holding_iff h hp g
  have hp' := hl p hp
  split at hp'
  · subst p
    rw [hp'.nodup_iff, List.nodup_cons] at hnd
    refine ⟨hnd.2, fun g => ?_⟩
    rw [frame_of_set hf]
    split
    · subst g
      simp [hnd.1, hne]
    · rename_i hg
      rw [← hmem g, hp'.mem_iff]
      simp [hg]
  · split at hp'
    · subst p
      have hnot : f ∉ s.holding r.place := fun hin => hne ((hmem f).mp hin ▸ ha)
      refine ⟨hp'.nodup_iff.mpr (List.nodup_cons.mpr ⟨hnot, hnd⟩), fun g => ?_⟩
      rw [hp'.mem_iff, List.mem_cons, frame_of_set hf]
      split
      · simp [*]
      · simp [*]
    · rename_i h1 h2
      rw [hp']
      refine ⟨hnd, fun g => ?_⟩
      rw [hmem g, frame_of_set hf]
      split
      · subst g
        rw [ha]
        exact ⟨fun e => absurd e.symm h1, fun e => absurd e.symm h2⟩
      · rfl

/-! ## Post order -/

theorem queuesInPostOrder_iff (s : State) : s.QueuesInPostOrder ↔ s.Placed ∧ s.Numbered ∧ s.Sorted := by
  constructor
  · rintro ⟨hplaced, hbelow, hdistinct, hurgent, hroutine, hundone⟩
    refine ⟨hplaced, ⟨?_, ?_⟩, fun c => by cases c; exacts [hurgent, hroutine]⟩
    · intro k n hk
      cases k with
      | some f =>
        obtain ⟨q, hq, rfl⟩ := (number_eq_some_iff _ _).mp hk
        exact hbelow f q hq
      | none =>
        obtain ⟨was, hwas, rfl⟩ := Option.map_eq_some_iff.mp hk
        exact (hundone was hwas).1
    · have apart : ∀ f n, s.numberOf (some f) = some n → s.numberOf none ≠ some n := by
        intro f n hf hn
        obtain ⟨q, hq, rfl⟩ := (number_eq_some_iff _ _).mp hf
        obtain ⟨was, hwas, hn⟩ := Option.map_eq_some_iff.mp hn
        exact (hundone was hwas).2 f q hq hn.symm
      intro j k n hj hk
      cases j with
      | none =>
        cases k with
        | none => rfl
        | some g => exact absurd hj (apart g n hk)
      | some f =>
        cases k with
        | none => exact absurd hk (apart f n hj)
        | some g =>
          obtain ⟨p, hp, hpn⟩ := (number_eq_some_iff _ _).mp hj
          obtain ⟨q, hq, hqn⟩ := (number_eq_some_iff _ _).mp hk
          by_contra hne
          exact hdistinct f g p q (fun e => hne (congrArg some e)) hp hq (hpn.trans hqn.symm)
  · rintro ⟨hplaced, hnumbered, hsorted⟩
    refine ⟨hplaced, ?_, ?_, hsorted .urgent, hsorted .routine, ?_⟩
    · intro f q hq
      exact hnumbered.below (some f) _ (number_of_posted hq)
    · intro f g p q hne hp hq heq
      exact hne (Option.some.inj
        (hnumbered.distinct (some f) (some g) _ (number_of_posted hp) (heq ▸ number_of_posted hq)))
    · intro was hwas
      have hn : s.numberOf none = some was.postNo := by simp [State.numberOf, hwas]
      refine ⟨hnumbered.below none _ hn, fun f q hq heq => ?_⟩
      cases hnumbered.distinct (some f) none _ (number_of_posted hq) (heq ▸ hn)

/-- Each number held after was held before, by the holder that σ tells. -/
theorem numbered_of_renamed {s t : State} (h : s.Numbered) (σ : Option FrameNo → Option FrameNo)
    (hσ : Function.Injective σ) (hn : s.osc.nextPost ≤ t.osc.nextPost)
    (hk : ∀ k n, t.numberOf k = some n → s.numberOf (σ k) = some n) : t.Numbered :=
  ⟨fun k n hkn => Nat.lt_of_lt_of_le (h.below _ n (hk k n hkn)) hn,
    fun j k n hj hkn => hσ (h.distinct _ _ n (hk j n hj) (hk k n hkn))⟩

/-- No holder has a number that it had not before. -/
theorem numbered_of_fewer {s t : State} (h : s.Numbered) (hn : s.osc.nextPost ≤ t.osc.nextPost)
    (hk : ∀ k n, t.numberOf k = some n → s.numberOf k = some n) : t.Numbered :=
  numbered_of_renamed h id Function.injective_id hn hk

/-- A number passes from one holder to another, which had none or loses its own. -/
theorem numbered_of_passed {s t : State} (h : s.Numbered) (i j : Option FrameNo)
    (hn : s.osc.nextPost ≤ t.osc.nextPost) (hi : t.numberOf i = none)
    (hj : ∀ n, t.numberOf j = some n → s.numberOf i = some n)
    (hk : ∀ k n, k ≠ i → k ≠ j → t.numberOf k = some n → s.numberOf k = some n) : t.Numbered := by
  refine numbered_of_renamed h (Equiv.swap i j) (Equiv.injective _) hn fun k n hkn => ?_
  by_cases hki : k = i
  · rw [hki, hi] at hkn
    cases hkn
  · by_cases hkj : k = j
    · subst hkj
      rw [Equiv.swap_apply_right]
      exact hj n hkn
    · rw [Equiv.swap_apply_of_ne_of_ne hki hkj]
      exact hk k n hki hkj hkn

/-- The numbers after the record of one frame was set. -/
theorem numberOf_of_set {s t : State} {f : FrameNo} {r : FrameRecord} (h : t.fpl.frames = s.fpl.frames.set f r)
    (g : FrameNo) : t.numberOf (some g) = if g = f then r.number else s.numberOf (some g) := by
  simp only [State.numberOf, frame_of_set h]
  split <;> rfl

/-- A frame whose record is set to one with no number, or with the number it had. -/
theorem numbered_of_set {s t : State} (h : s.Numbered) {f : FrameNo} {r : FrameRecord}
    (hf : t.fpl.frames = s.fpl.frames.set f r) (hr : r.number = none ∨ r.number = (s.frame f).number)
    (hu : t.fen.undoneFrame = none ∨ t.fen.undoneFrame = s.fen.undoneFrame)
    (hn : s.osc.nextPost ≤ t.osc.nextPost) : t.Numbered := by
  refine numbered_of_fewer h hn fun k n hk => ?_
  cases k with
  | none =>
    rcases hu with hu | hu
    · simp [State.numberOf, hu] at hk
    · simpa [State.numberOf, hu] using hk
  | some g =>
    rw [numberOf_of_set hf] at hk
    split at hk
    · subst g
      rcases hr with hr | hr
      · simp [hr] at hk
      · exact hr.symm.trans hk
    · exact hk

/-- Queues that lose members, whose members keep their post numbers, stay in order. -/
theorem sorted_of_sublist {s t : State} (h : s.Sorted) (hq : ∀ c, (t.queueOf c).Sublist (s.queueOf c))
    (hn : ∀ c, ∀ f ∈ t.queueOf c, (t.frame f).postNo = (s.frame f).postNo) : t.Sorted := by
  intro c
  refine ((h c).sublist (hq c)).imp_of_mem ?_
  intro f g hf hg hlt
  rwa [hn c f hf, hn c g hg]

/-- A frame that leaves the queues, or stays out of them. -/
theorem sorted_of_set {s t : State} (h : s.Sorted) (hp : t.Placed) {f : FrameNo} {r : FrameRecord}
    (hf : t.fpl.frames = s.fpl.frames.set f r) (hr : ∀ c : FrameClass, r.place ≠ c.place)
    (hq : ∀ c, (t.queueOf c).Sublist (s.queueOf c)) : t.Sorted := by
  refine sorted_of_sublist h hq fun c g hg => ?_
  have hgf : g ≠ f := by
    rintro rfl
    rw [mem_queueOf_iff hp, frame_of_set_same hf] at hg
    exact hr c hg
  rw [frame_of_set_other hf hgf]

/-- A frame that was in no queue changes; the members of the queues keep their post numbers. -/
theorem postNo_of_set_outside {s t : State} (hp : s.Placed) {f : FrameNo} {r : FrameRecord}
    (hf : t.fpl.frames = s.fpl.frames.set f r) (hout : ∀ c : FrameClass, (s.frame f).place ≠ c.place)
    (c : FrameClass) (g : FrameNo) (hg : g ∈ s.queueOf c) : (t.frame g).postNo = (s.frame g).postNo := by
  have hgf : g ≠ f := by
    rintro rfl
    exact hout c ((mem_queueOf_iff hp c g).mp hg)
  rw [frame_of_set_other hf hgf]

/-- A frame enters the queue of its class at a place that leaves it in order. -/
theorem sorted_of_entered {s t : State} (h : s.Sorted) (hp : s.Placed) {f : FrameNo} {q : Posted}
    (hf : t.fpl.frames = s.fpl.frames.set f (.queued q)) (hout : ∀ c : FrameClass, (s.frame f).place ≠ c.place)
    {queue : List FrameNo} (hq : ∀ c, t.queueOf c = if c = q.cls then queue else s.queueOf c)
    (hown : ((s.queueOf q.cls).Pairwise fun f g => (t.frame f).postNo < (t.frame g).postNo) →
      queue.Pairwise fun f g => (t.frame f).postNo < (t.frame g).postNo) : t.Sorted := by
  have kept := postNo_of_set_outside hp hf hout
  have before : ∀ c, (s.queueOf c).Pairwise fun f g => (t.frame f).postNo < (t.frame g).postNo := by
    intro c
    refine (h c).imp_of_mem fun ha hb hlt => ?_
    rwa [kept c _ ha, kept c _ hb]
  intro c
  rw [hq c]
  split
  · exact hown (before q.cls)
  · exact before c

/-- A member of a queue holds its post number. -/
theorem numberOf_of_queued {s : State} (hp : s.Placed) {c : FrameClass} {g : FrameNo} (hg : g ∈ s.queueOf c) :
    s.numberOf (some g) = some (s.frame g).postNo := by
  simp [State.numberOf, FrameRecord.number, (mem_queueOf_iff hp c g).mp hg]

/-- A frame put at the place its number gives leaves a queue in order. -/
theorem pairwise_insertByPost (s : State) (f : FrameNo) (queue : List FrameNo)
    (h : queue.Pairwise fun a b => (s.frame a).postNo < (s.frame b).postNo)
    (hne : ∀ g ∈ queue, (s.frame g).postNo ≠ (s.frame f).postNo) :
    (s.insertByPost (s.frame f).postNo f queue).Pairwise fun a b => (s.frame a).postNo < (s.frame b).postNo := by
  induction queue with
  | nil => simp [State.insertByPost]
  | cons a rest ih =>
    rw [List.pairwise_cons] at h
    have hrest := ih h.2 fun g hg => hne g (List.mem_cons_of_mem a hg)
    have ha := hne a List.mem_cons_self
    simp only [State.insertByPost]
    split
    · rename_i hlt
      refine List.pairwise_cons.mpr ⟨fun b hb => ?_, hrest⟩
      rcases (mem_insertByPost s _ f b rest).mp hb with rfl | hb
      · exact hlt
      · exact h.1 b hb
    · rename_i hlt
      have hfa : (s.frame f).postNo < (s.frame a).postNo := by omega
      refine List.pairwise_cons.mpr ⟨fun b hb => ?_, List.pairwise_cons.mpr h⟩
      rcases List.mem_cons.mp hb with rfl | hb
      · exact hfa
      · exact Nat.lt_trans hfa (h.1 b hb)

/-- A frame put into a queue that does not hold it is one more member. -/
theorem perm_insertByPost (s : State) (n : Nat) (f : FrameNo) (queue : List FrameNo) :
    (s.insertByPost n f queue).Perm (f :: queue) := by
  induction queue with
  | nil => exact List.Perm.refl _
  | cons a rest ih =>
    simp only [State.insertByPost]
    split
    · exact (ih.cons a).trans (List.Perm.swap f a rest)
    · exact List.Perm.refl _

end Sys2Proof.Laws
end

section
/-!
SUPPORT. The places and the post order of the frames, act by act, and after a reset (01 R3, 02 R23, 01 R20).
-/

namespace Sys2Proof.Laws

open Sys2Proof.Machine

variable (straps : Straps) (mem : List Host.Cell) (epoch : Nat) (x : Txn) (sdo : Option Byte) (pending : List Instr)

/-! ## Lists of places -/

theorem filter_ne_of_not_mem {l : List FrameNo} {f : FrameNo} (h : f ∉ l) : l.filter (fun g => g ≠ f) = l :=
  List.filter_eq_self.mpr fun _ hg => decide_eq_true fun e => h (e ▸ hg)

/-- The head of a place's list has that place in its record. -/
theorem place_of_head {s : State} (hp : s.Placed) {p : FramePlace} {f : FrameNo} {rest : List FrameNo}
    (head : s.holding p = f :: rest) (hl : p.isList = true) : (s.frame f).place = p :=
  (mem_holding_iff hp hl f).mp (head ▸ List.mem_cons_self)

/-- Taken out by its name, a frame leaves the list of its place, and no other list. -/
theorem holding_filter {s : State} (hp : s.Placed) (f : FrameNo) {p : FramePlace} (hl : p.isList = true) :
    if p = (s.frame f).place then (s.holding p).Perm (f :: (s.holding p).filter (fun g => g ≠ f))
    else (s.holding p).filter (fun g => g ≠ f) = s.holding p := by
  have hmem := mem_holding_iff hp hl f
  split
  · rename_i h
    exact perm_cons_filter (nodup_holding hp hl) (hmem.mpr h.symm)
  · rename_i h
    exact filter_ne_of_not_mem fun hf => h (hmem.mp hf).symm

/-- A QUEUED frame leaves its queue for a place that is no queue. -/
theorem placed_of_unqueued {s t : State} (hp : s.Placed) {f : FrameNo} {q : Posted} {r : FrameRecord}
    (was : s.frame f = .queued q) (hf : t.fpl.frames = s.fpl.frames.set f r)
    (hr : r.place ≠ .urgentQueue ∧ r.place ≠ .routineQueue)
    (hu : t.osc.urgent = s.osc.urgent.filter (fun g => g ≠ f))
    (hn : t.osc.routine = s.osc.routine.filter (fun g => g ≠ f))
    (hl : ∀ p, p.isList = true → p ≠ .urgentQueue → p ≠ .routineQueue →
      if p = r.place then (t.holding p).Perm (f :: s.holding p) else t.holding p = s.holding p) : t.Placed := by
  have ha : (s.frame f).place = q.cls.place := by simp [was]
  have hne : r.place ≠ q.cls.place := by cases q.cls; exacts [hr.1, hr.2]
  have hother : ∀ p, p ≠ .urgentQueue → p ≠ .routineQueue → p ≠ q.cls.place := by
    intro p h1 h2
    cases q.cls
    exacts [h1, h2]
  refine placed_of_handed hp hf ha hne fun p hpl => ?_
  have hfilter := ha ▸ holding_filter hp f hpl
  by_cases h1 : p = .urgentQueue
  · subst h1
    rw [if_neg (Ne.symm hr.1)]
    exact (show t.holding .urgentQueue = _ from hu) ▸ hfilter
  · by_cases h2 : p = .routineQueue
    · subst h2
      rw [if_neg (Ne.symm hr.2)]
      exact (show t.holding .routineQueue = _ from hn) ▸ hfilter
    · rw [if_neg (hother p h1 h2)]
      exact hl p hpl h1 h2

/-! ## The reset state -/

@[simp] theorem frame_afterReset (f : FrameNo) : (State.afterReset straps mem epoch x sdo pending).frame f = .free := by
  simp [State.frame, State.afterReset, Fpl.atReset]

@[simp] theorem peer_afterReset (p : Pos) :
    (State.afterReset straps mem epoch x sdo pending).peer p = PeerEntry.atReset := by
  simp [State.peer, State.afterReset]

@[simp] theorem wakeEntry_afterReset (n : Fin 3) :
    (State.afterReset straps mem epoch x sdo pending).wakeEntry n = WakeEntry.atReset := by
  simp [State.wakeEntry, State.afterReset, Wku.atReset]

theorem placed_afterReset : (State.afterReset straps mem epoch x sdo pending).Placed := by
  rw [placed_iff]
  simp only [frame_afterReset]
  rw [forall_isList]
  simp [State.holding, State.afterReset, Osc.atReset, Ibu.atReset, Fpl.atReset, List.nodup_finRange]

/-! ## Places over the acts -/

theorem placed_of_act {s t : State} (h : Act s t) (hp : s.Placed) : t.Placed := by
  cases h with
  | aside | lif | rdc | fen | lpt | wku | creditLast | byte => exact hp
  | entry p e may =>
    rw [setPeer_only]
    exact hp
  | slot x left entered =>
    have hs : ∀ f, s.osc.slot ≠ some (.frame f) := fun f hf => left f hf ((slot_iff_place hp f).mp hf)
    refine placed_of_same hp (forall_isList.mpr ?_) fun f => rfl
    simp [State.holding, State.setSlot, slotFrames_of_no_frame hs, slotFrames_of_no_frame entered]
  | records frames stand =>
    exact placed_of_same hp (forall_isList.mpr (by simp [State.holding])) fun f => (stand f).place
  | take f rest head below =>
    refine placed_of_handed hp (r := .filling) rfl (place_of_head hp (p := .freeList) head rfl) (by simp)
      (forall_isList.mpr ?_)
    simp [State.holding, head]
  | accept f rest r image head size =>
    refine placed_of_handed hp (r := .arrived r) rfl (place_of_head hp (p := .freeList) head rfl) (by simp)
      (forall_isList.mpr ?_)
    simp [State.holding, head]
  | hold f rest r head was =>
    refine placed_of_handed hp (r := .held r) rfl (place_of_head hp (p := .inboundQueue) head rfl) (by simp)
      (forall_isList.mpr ?_)
    simp [State.holding, head]
  | stray f rest head was => exact absurd (place_of_head hp (p := .inboundQueue) head rfl) was
  | release f r was =>
    refine placed_of_handed hp (r := .free) rfl (congrArg FrameRecord.place was) (by simp) (forall_isList.mpr ?_)
    simp [State.holding]
  | pop f rest d head was =>
    refine placed_of_handed hp (r := .free) rfl (congrArg FrameRecord.place was) (by simp) (forall_isList.mpr ?_)
    simp [State.holding, head]
  | reject f d was =>
    refine placed_of_handed hp (r := .done d) rfl (congrArg FrameRecord.place was) (by simp) (forall_isList.mpr ?_)
    simp [State.holding, complete_only]
  | post f q was number =>
    refine placed_of_handed hp (r := .queued q) rfl (congrArg FrameRecord.place was)
      (by cases h : q.cls <;> simp [h, FrameClass.place]) (forall_isList.mpr ?_)
    cases h : q.cls <;> simp [State.holding, State.withQueue, State.queueOf, FrameClass.place, h]
  | finish f q d was =>
    refine placed_of_unqueued hp was (r := .done d) rfl (by simp) rfl rfl (forall_isList.mpr ?_)
    simp [State.holding, complete_only, unqueue_only]
  | claim f q was empty =>
    refine placed_of_unqueued hp was (r := .sending q false) rfl (by simp) rfl rfl (forall_isList.mpr ?_)
    simp [State.holding, unqueue_only, State.setFrame, State.setSlot, empty]
  | settle f q c d x e slot was entered =>
    refine placed_of_handed hp (r := .done d) rfl (congrArg FrameRecord.place was) (by simp) (forall_isList.mpr ?_)
    simp [State.holding, complete_only, State.setSlot, slot, slotFrames_of_no_frame entered]
  | requeue f q c n slot was =>
    refine placed_of_handed hp (r := .queued { q with attempts := n }) (frames_enqueue _ _ _)
      (congrArg FrameRecord.place was) (by cases q.cls <;> simp [FrameClass.place]) (forall_isList.mpr ?_)
    cases q.cls <;> simp [State.holding, State.enqueue, State.withQueue, State.queueOf, State.setFrame,
      State.setSlot, slot, FrameClass.place, perm_insertByPost]
  | restore f d was e slot done =>
    have hu := holding_filter hp f (p := .completionQueue) rfl
    simp only [done, place_done, if_true] at hu
    refine placed_of_handed hp (r := .sending was true) rfl (congrArg FrameRecord.place done) (by simp)
      (forall_isList.mpr ?_)
    simpa [State.holding, slot] using hu
  | reset straps mem epoch x sdo pending kept => exact placed_afterReset straps mem epoch x sdo pending

/-! ## Post order over the acts -/

theorem numbered_afterReset : (State.afterReset straps mem epoch x sdo pending).Numbered := by
  have none_held : ∀ k, (State.afterReset straps mem epoch x sdo pending).numberOf k = none := by
    intro k
    cases k with
    | none => rfl
    | some f => simp [State.numberOf, FrameRecord.number, FramePlace.isPosted]
  exact ⟨fun k n h => by simp [none_held] at h, fun j k n h => by simp [none_held] at h⟩

/-- The post numbers of a state whose records, next number and undoing are those of another. -/
theorem numbered_of_same {s t : State} (h : s.Numbered) (hf : t.fpl.frames = s.fpl.frames)
    (hu : t.fen.undoneFrame = none ∨ t.fen.undoneFrame = s.fen.undoneFrame) (hn : t.osc.nextPost = s.osc.nextPost) :
    t.Numbered := by
  refine numbered_of_fewer h hn.ge fun k n hk => ?_
  cases k with
  | some f => simpa [State.numberOf, State.frame, hf] using hk
  | none => rcases hu with hu | hu <;> simp_all [State.numberOf]

/-- The frame that post queues takes the next number. -/
theorem numbered_of_posted {s t : State} (h : s.Numbered) {f : FrameNo} {q : Posted}
    (hf : t.fpl.frames = s.fpl.frames.set f (.queued q)) (hq : q.postNo = s.osc.nextPost) (hu : t.fen = s.fen)
    (hn : t.osc.nextPost = s.osc.nextPost + 1) : t.Numbered := by
  have hnew : t.numberOf (some f) = some s.osc.nextPost := by
    simp [State.numberOf, frame_of_set_same hf, FrameRecord.number, FrameRecord.postNo, hq]
  have hold : ∀ k, k ≠ some f → t.numberOf k = s.numberOf k := by
    intro k hk
    cases k with
    | none => simp [State.numberOf, hu]
    | some g => simp [State.numberOf, frame_of_set_other hf (fun e => hk (congrArg some e))]
  constructor
  · intro k n hk
    by_cases hkf : k = some f
    · simp_all
    · have := h.below k n (hold k hkf ▸ hk)
      omega
  · intro j k n hj hk
    by_cases hjf : j = some f <;> by_cases hkf : k = some f
    · exact hjf.trans hkf.symm
    · have := h.below k n (hold k hkf ▸ hk)
      simp_all
    · have := h.below j n (hold j hjf ▸ hj)
      simp_all
    · exact h.distinct j k n (hold j hjf ▸ hj) (hold k hkf ▸ hk)

theorem number_queued (q : Posted) : (FrameRecord.queued q).number = some q.postNo := by
  simp [FrameRecord.number, FrameRecord.postNo]

theorem number_sending (q : Posted) (c : Bool) : (FrameRecord.sending q c).number = some q.postNo := rfl

theorem numbered_of_act {s t : State} (h : Act s t) (hs : s.Numbered) : t.Numbered := by
  cases h with
  | aside | lif | rdc | lpt | wku | creditLast | byte | slot | stray => exact numbered_of_same hs rfl (.inr rfl) rfl
  | fen e undone => exact numbered_of_same hs rfl undone rfl
  | entry p e may =>
    rw [setPeer_only]
    exact numbered_of_same hs rfl (.inr rfl) rfl
  | records frames stand =>
    refine numbered_of_fewer hs (Nat.le_refl _) fun k n hk => ?_
    cases k with
    | none => exact hk
    | some f => exact (number_of_standsAs (stand f)).symm.trans hk
  | take f | accept f | release f | pop f | reject f | hold f | finish f =>
    exact numbered_of_set hs rfl (.inl rfl) (.inr rfl) (Nat.le_refl _)
  | post f q was number => exact numbered_of_posted hs rfl number rfl rfl
  | claim f q was empty =>
    exact numbered_of_set hs (r := .sending q false) rfl (.inr (by rw [was, number_sending, number_queued])) (.inr rfl)
      (Nat.le_refl _)
  | requeue f q c n slot was =>
    refine numbered_of_set hs (f := f) (r := .queued { q with attempts := n }) (frames_enqueue _ _ _)
      (.inr (by rw [was, number_sending, number_queued])) (.inr (by rw [enqueue_only]; rfl)) ?_
    exact (enqueue_keeps (s.setSlot none) f _).2.2.2.ge
  | settle f q c d x e slot was entered attempts undone =>
    have hf : (((s.setSlot x).complete f d).withFen e).fpl.frames = s.fpl.frames.set f (.done d) := rfl
    rcases undone with undone | undone | undone
    · exact numbered_of_set hs hf (.inl rfl) (.inl undone) (Nat.le_refl _)
    · exact numbered_of_set hs hf (.inl rfl) (.inr undone) (Nat.le_refl _)
    · refine numbered_of_passed hs (some f) none (Nat.le_refl _) ?_ ?_ ?_
      · rw [numberOf_of_set hf, if_pos rfl]
        rfl
      · intro n hn
        simpa [State.numberOf, undone, was, number_sending] using hn
      · intro k n hkf hk0 hn
        cases k with
        | none => exact absurd rfl hk0
        | some g =>
          rwa [numberOf_of_set hf, if_neg fun e => hkf (congrArg some e)] at hn
  | restore f d was e slot done kept undone =>
    refine numbered_of_passed hs none (some f) (Nat.le_refl _) ?_ ?_ ?_
    · simp [State.numberOf, undone]
    · intro n hn
      rw [numberOf_of_set (s := s) (r := .sending was true) rfl, if_pos rfl, number_sending] at hn
      simpa [State.numberOf, kept] using hn
    · intro k n hk0 hkf hn
      cases k with
      | none => exact absurd rfl hk0
      | some g =>
        rwa [numberOf_of_set (s := s) (r := .sending was true) rfl, if_neg fun e => hkf (congrArg some e)] at hn
  | reset straps mem epoch x sdo pending kept => exact numbered_afterReset straps mem epoch x sdo pending

/-- The queues, and the post numbers of their frames, are those of another state. -/
theorem sorted_of_same {s t : State} (h : s.Sorted) (hf : ∀ f, (t.frame f).postNo = (s.frame f).postNo)
    (hq : ∀ c, t.queueOf c = s.queueOf c) : t.Sorted :=
  sorted_of_sublist h (fun c => hq c ▸ List.Sublist.refl _) fun _ f _ => hf f

/-- The queues after a frame has entered its own. -/
theorem queueOf_enqueue (s : State) (f : FrameNo) (q : Posted) (c : FrameClass) :
    (s.enqueue f q).queueOf c =
      if c = q.cls then (s.setFrame f (.queued q)).insertByPost q.postNo f (s.queueOf q.cls) else s.queueOf c := by
  cases c <;> cases h : q.cls <;> simp [State.enqueue, State.queueOf, State.withQueue, State.setFrame, h]

/-- The tail of its queue is the place of the frame that takes the next number. -/
theorem sorted_of_posted {s t : State} (ho : s.Sorted) (hp : s.Placed) (hs : s.Numbered) {f : FrameNo} {q : Posted}
    (hf : t.fpl.frames = s.fpl.frames.set f (.queued q)) (hout : ∀ c : FrameClass, (s.frame f).place ≠ c.place)
    (hq : ∀ c, t.queueOf c = if c = q.cls then s.queueOf q.cls ++ [f] else s.queueOf c)
    (number : q.postNo = s.osc.nextPost) : t.Sorted := by
  refine sorted_of_entered ho hp hf hout hq fun hbefore => ?_
  refine List.pairwise_append.mpr ⟨hbefore, List.pairwise_singleton _ f, fun g hg a ha => ?_⟩
  obtain rfl := List.mem_singleton.mp ha
  rw [postNo_of_set_outside hp hf hout _ g hg, frame_of_set_same hf]
  simpa [FrameRecord.postNo, number] using hs.below (some g) _ (numberOf_of_queued hp hg)

/-- A frame that returns to its queue takes the place its number gives, in a state `u` with the same records. -/
theorem sorted_of_requeued {s t u : State} (ho : s.Sorted) (hp : s.Placed) (hs : s.Numbered) {f : FrameNo} {q : Posted}
    (hf : t.fpl.frames = s.fpl.frames.set f (.queued q)) (hu : u.fpl.frames = t.fpl.frames)
    (hout : ∀ c : FrameClass, (s.frame f).place ≠ c.place)
    (hq : ∀ c, t.queueOf c = if c = q.cls then u.insertByPost q.postNo f (s.queueOf q.cls) else s.queueOf c)
    (number : s.numberOf (some f) = some q.postNo) : t.Sorted := by
  have hframe : ∀ g, t.frame g = u.frame g := fun g => by simp only [State.frame, hu]
  have hself : (u.frame f).postNo = q.postNo := by
    rw [frame_of_set_same (hu.trans hf)]
    rfl
  refine sorted_of_entered ho hp hf hout hq fun hbefore => ?_
  simp only [hframe] at hbefore ⊢
  rw [← hself]
  refine pairwise_insertByPost u f _ hbefore fun g hg heq => ?_
  rw [hself, postNo_of_set_outside hp (hu.trans hf) hout _ g hg] at heq
  cases hs.distinct (some g) (some f) _ (numberOf_of_queued hp hg) (heq ▸ number)
  exact hout _ ((mem_queueOf_iff hp _ _).mp hg)

theorem sorted_afterReset : (State.afterReset straps mem epoch x sdo pending).Sorted
  | .urgent => List.Pairwise.nil
  | .routine => List.Pairwise.nil

theorem sorted_of_act {s t : State} (h : Act s t) (hp : s.Placed) (hs : s.Numbered) (ho : s.Sorted) : t.Sorted := by
  have ht := placed_of_act h hp
  cases h with
  | aside | lif | rdc | fen | lpt | wku | creditLast | byte | slot | stray =>
    exact sorted_of_same ho (fun _ => rfl) (fun c => by cases c <;> rfl)
  | entry p e may =>
    rw [setPeer_only]
    exact sorted_of_same ho (fun _ => rfl) (fun c => by cases c <;> rfl)
  | records frames stand =>
    exact sorted_of_same ho (fun f => (stand f).postNo) (fun c => by cases c <;> rfl)
  | take f | accept f | release f | pop f | reject f | hold f | settle f | restore f =>
    exact sorted_of_set ho ht rfl (fun c => by cases c <;> simp [FrameClass.place])
      (fun c => by cases c <;> exact List.Sublist.refl _)
  | finish f | claim f =>
    exact sorted_of_set ho ht rfl (fun c => by cases c <;> simp [FrameClass.place])
      (fun c => by cases c <;> exact List.filter_sublist)
  | post f q was number =>
    refine sorted_of_posted ho hp hs rfl (fun c => by rw [was]; cases c <;> simp [FrameClass.place])
      (fun c => ?_) number
    cases c <;> cases q.cls <;> simp [State.queueOf, State.withQueue]
  | requeue f q c n slot was =>
    have hq := queueOf_enqueue (s.setSlot none) f { q with attempts := n }
    have hslot : ∀ c, (s.setSlot none).queueOf c = s.queueOf c := fun c => by cases c <;> rfl
    simp only [hslot] at hq
    refine sorted_of_requeued ho hp hs (q := { q with attempts := n }) (frames_enqueue _ _ _)
      (frames_enqueue _ _ _).symm (fun c => by rw [was]; cases c <;> simp [FrameClass.place]) hq ?_
    rw [State.numberOf, was, number_sending]
  | reset straps mem epoch x sdo pending kept => exact sorted_afterReset straps mem epoch x sdo pending

/-- Post order with the places, act by act. -/
theorem postOrder_of_act {s t : State} (h : Act s t) (hs : s.QueuesInPostOrder) : t.QueuesInPostOrder := by
  obtain ⟨hp, hn, ho⟩ := (queuesInPostOrder_iff s).mp hs
  exact (queuesInPostOrder_iff t).mpr ⟨placed_of_act h hp, numbered_of_act h hn, sorted_of_act h hp hn ho⟩

end Sys2Proof.Laws
end

section
/-!
SUPPORT. Frame memory, the own entry, outbound-owned, the attempts and the ranges of the counts, act by act.
-/

namespace Sys2Proof.Machine

/-- The attempts that a record may show (01 R11). -/
structure FrameRecord.AttemptsOk (r : FrameRecord) : Prop where
  atMost : r.attempts ≤ Config.maxAttempts
  posted : ∀ q, r.posted? = some q → q.attempts < Config.maxAttempts

/-- The ranges of an entry (05 Table 5-1, 04 R65). -/
structure PeerEntry.InRange (e : PeerEntry) (c0 : Nat) : Prop where
  missed : e.missed ≤ Config.maxMissed
  held : e.held ≤ c0

end Sys2Proof.Machine

namespace Sys2Proof.Laws

open Sys2Proof.Machine

variable (straps : Straps) (mem : List Host.Cell) (epoch : Nat) (x : Txn) (sdo : Option Byte) (pending : List Instr)

/-! ## Frame memory and the own entry -/

theorem memoryOk_of_act {s t : State} (h : Act s t) (hs : s.MemoryOk) : t.MemoryOk := by
  obtain ⟨hwf, hrange⟩ := hs
  cases h with
  | aside | lif | rdc | fen | lpt | wku | creditLast | slot | records | take | hold | stray | release | pop | reject
  | post | finish | claim | settle | restore => exact ⟨hwf, hrange⟩
  | entry p e may =>
    rw [setPeer_only]
    exact ⟨hwf, hrange⟩
  | requeue f q c n =>
    rw [enqueue_only]
    exact ⟨hwf, hrange⟩
  | byte a v inside => exact ⟨wf_write a v hwf, inRange_write v hrange inside⟩
  | accept f rest r image head size =>
    refine ⟨wf_writeBytes image _ hwf, inRange_writeBytes image hrange ?_⟩
    rw [size]
    exact frame_in_range f
  | reset straps mem epoch x sdo pending kept =>
    rcases kept with rfl | rfl
    · exact ⟨hwf, hrange⟩
    · exact ⟨rfl, rfl⟩

theorem ownEntry_of_act {s t : State} (h : Act s t) (hs : s.OwnEntryReset) : t.OwnEntryReset := by
  cases h with
  | aside | rdc | fen | lpt | wku | creditLast | slot | byte | records | take | accept | hold | stray | release | pop
  | reject | post | finish | claim | settle | restore => exact hs
  | lif l straps counts =>
    have hown : (s.withLif l).own = s.own := congrArg Straps.pos straps
    rw [State.OwnEntryReset, hown]
    exact hs
  | entry p e may =>
    have hown : (s.setPeer p e).own = s.own := by rw [setPeer_only]; rfl
    rw [State.OwnEntryReset, hown, peer_setPeer]
    split
    · exact hs
    · rename_i hp
      rw [if_neg (Ne.symm hp)]
      exact hs
  | requeue f q c n =>
    rw [enqueue_only]
    exact hs
  | reset => exact peer_afterReset _ _ _ _ _ _ _

/-! ## Outbound-owned -/

/-- A count over distinct members, of two tests that differ at one of them. -/
theorem countP_of_agree_except {α : Type} {l : List α} (hl : l.Nodup) {f : α} (hf : f ∈ l) {p q : α → Bool}
    (h : ∀ g, g ≠ f → p g = q g) : l.countP p + (q f).toNat = l.countP q + (p f).toNat := by
  induction l with
  | nil => cases hf
  | cons a rest ih =>
    obtain ⟨ha, hrest⟩ := List.nodup_cons.mp hl
    simp only [List.countP_cons]
    rcases List.mem_cons.mp hf with rfl | hf
    · have : rest.countP p = rest.countP q :=
        List.countP_congr fun g hg => by rw [h g fun e => ha (e ▸ hg)]
      cases hp : p f <;> cases hq : q f <;> simp [this]
    · have := ih hrest hf
      rw [h a fun e => ha (e ▸ hf)]
      omega

/-- Outbound-owned after the record of one frame was set. -/
theorem outboundOwned_of_set {s t : State} {f : FrameNo} {r : FrameRecord}
    (h : t.fpl.frames = s.fpl.frames.set f r) :
    t.outboundOwned + (s.frame f).isOutbound.toNat = s.outboundOwned + r.isOutbound.toNat := by
  have := countP_of_agree_except (List.nodup_finRange 48) (List.mem_finRange f)
    (p := fun g => (t.frame g).isOutbound) (q := fun g => (s.frame g).isOutbound)
    fun g hg => by rw [frame_of_set_other h hg]
  rwa [frame_of_set_same h] at this

/-- A record is outbound by its place. -/
theorem isOutbound_of_place {r r' : FrameRecord} (h : r.place = r'.place) : r.isOutbound = r'.isOutbound := by
  have by_place : ∀ r : FrameRecord,
      r.isOutbound = (r.place.isPosted || r.place == .fillingSet || r.place == .completionQueue) := by
    intro r
    cases r with
    | queued q => simp [FrameRecord.isOutbound]
    | _ => rfl
  rw [by_place, by_place, h]

/-- Where frame f stays outbound, or is not outbound after, outbound-owned does not rise. -/
theorem outboundBounded_of_set {s t : State} (hs : s.OutboundBounded) {f : FrameNo} {r : FrameRecord}
    (h : t.fpl.frames = s.fpl.frames.set f r) (hr : r.isOutbound = true → (s.frame f).isOutbound = true) :
    t.OutboundBounded := by
  have hcount := outboundOwned_of_set h
  have hle : r.isOutbound.toNat ≤ (s.frame f).isOutbound.toNat := Bool.toNat_le_toNat hr
  unfold State.OutboundBounded at hs ⊢
  omega

@[simp] theorem outboundOwned_afterReset :
    (State.afterReset straps mem epoch x sdo pending).outboundOwned = 0 := by
  simp [State.outboundOwned, FrameRecord.isOutbound]

theorem outboundBounded_afterReset :
    (State.afterReset straps mem epoch x sdo pending).OutboundBounded := by
  simp [State.OutboundBounded]

theorem outboundBounded_of_act {s t : State} (h : Act s t) (hs : s.OutboundBounded) : t.OutboundBounded := by
  cases h with
  | aside | lif | rdc | fen | lpt | wku | creditLast | slot | byte | stray => exact hs
  | entry p e may =>
    rw [setPeer_only]
    exact hs
  | records frames stand =>
    have : (s.withFpl { s.fpl with frames := frames }).outboundOwned = s.outboundOwned :=
      List.countP_congr fun f _ => Bool.eq_iff_iff.mp (isOutbound_of_place (stand f).place)
    rw [State.OutboundBounded, this]
    exact hs
  | take f rest head below =>
    have hcount := outboundOwned_of_set (s := s) (t := { s with
      fpl := { s.fpl with frames := s.fpl.frames.set f .filling, freeList := rest } }) rfl
    unfold State.OutboundBounded
    have := Bool.toNat_le (FrameRecord.filling.isOutbound)
    omega
  | accept f | hold f | release f | pop f => exact outboundBounded_of_set hs rfl (by intro h; cases h)
  | reject f d was | post f q was | finish f q d was | claim f q was =>
    exact outboundBounded_of_set hs rfl (fun _ => by rw [was]; rfl)
  | settle f q c d x e slot was => exact outboundBounded_of_set hs (r := .done d) rfl (fun _ => by rw [was]; rfl)
  | requeue f q c n slot was =>
    exact outboundBounded_of_set hs (frames_enqueue (s.setSlot none) f _) (fun _ => by rw [was]; rfl)
  | restore f d was e slot done => exact outboundBounded_of_set hs (f := f) rfl (fun _ => by rw [done]; rfl)
  | reset straps mem epoch x sdo pending kept =>
    exact outboundBounded_afterReset straps mem epoch x sdo pending

/-! ## Attempts -/

theorem attemptsBounded_iff (s : State) : s.AttemptsBounded ↔
    (∀ f, (s.frame f).AttemptsOk) ∧
    (∀ p o, (s.peer p).openCredit = some o → o.attempts < Config.maxAttempts) ∧
    ∀ was, s.fen.undoneFrame = some was → was.attempts < Config.maxAttempts :=
  ⟨fun ⟨hmost, hposted, hcredit, hundone⟩ => ⟨fun f => ⟨hmost f, hposted f⟩, hcredit, hundone⟩,
    fun ⟨hframes, hcredit, hundone⟩ =>
      ⟨fun f => (hframes f).atMost, fun f => (hframes f).posted, hcredit, hundone⟩⟩

/-- Records alone change, to ones whose attempts are in bounds. -/
theorem attemptsBounded_of_frames {s t : State} (hs : s.AttemptsBounded) (hf : ∀ f, (t.frame f).AttemptsOk)
    (hp : t.peers = s.peers) (hu : t.fen.undoneFrame = s.fen.undoneFrame) : t.AttemptsBounded := by
  obtain ⟨-, hcredit, hundone⟩ := (attemptsBounded_iff s).mp hs
  refine (attemptsBounded_iff t).mpr ⟨hf, ?_, hu ▸ hundone⟩
  simpa only [State.peer, hp] using hcredit

/-- One record is set, to one whose attempts are in bounds. -/
theorem attemptsBounded_of_set {s t : State} (hs : s.AttemptsBounded) {f : FrameNo} {r : FrameRecord}
    (hf : t.fpl.frames = s.fpl.frames.set f r) (hr : r.AttemptsOk) (hp : t.peers = s.peers)
    (hu : t.fen.undoneFrame = s.fen.undoneFrame) : t.AttemptsBounded :=
  attemptsBounded_of_frames hs (forall_frame_of_set ((attemptsBounded_iff s).mp hs).1 hf hr) hp hu

theorem attemptsOk_of_place {r : FrameRecord} (h0 : r.attempts = 0) (hp : r.posted? = none) : r.AttemptsOk :=
  ⟨by simp [h0], fun q hq => by simp [hp] at hq⟩

theorem attemptsOk_queued {q : Posted} (h : q.attempts < Config.maxAttempts) : (FrameRecord.queued q).AttemptsOk :=
  ⟨h.le, fun _ hq => Option.some.inj hq ▸ h⟩

theorem attemptsOk_sending {q : Posted} {c : Bool} (h : q.attempts < Config.maxAttempts) :
    (FrameRecord.sending q c).AttemptsOk := ⟨h.le, fun _ hq => Option.some.inj hq ▸ h⟩

theorem attemptsOk_done {d : DoneRecord} (h : d.attempts ≤ Config.maxAttempts) : (FrameRecord.done d).AttemptsOk :=
  ⟨h, fun _ hq => nomatch hq⟩

theorem attemptsOk_of_standsAs {r r' : FrameRecord} (h : r.StandsAs r') (hr : r'.AttemptsOk) : r.AttemptsOk := by
  refine ⟨h.attempts ▸ hr.atMost, fun q hq => ?_⟩
  obtain ⟨q', hq'⟩ := exists_posted (h.place ▸ isPosted_of_posted hq)
  rw [← attempts_of_posted hq, h.attempts, attempts_of_posted hq']
  exact hr.posted q' hq'

theorem attemptsBounded_afterReset :
    (State.afterReset straps mem epoch x sdo pending).AttemptsBounded := by
  refine (attemptsBounded_iff _).mpr ⟨fun f => ?_, fun p o ho => ?_, fun w hw => nomatch hw⟩
  · rw [frame_afterReset]
    exact attemptsOk_of_place rfl rfl
  · rw [peer_afterReset] at ho
    cases ho

theorem attemptsBounded_of_act {s t : State} (h : Act s t) (hs : s.AttemptsBounded) : t.AttemptsBounded := by
  obtain ⟨hframes, hcredit, hundone⟩ := (attemptsBounded_iff s).mp hs
  have posted : ∀ {f q}, (s.frame f).posted? = some q → q.attempts < Config.maxAttempts :=
    fun {f q} => (hframes f).posted q
  cases h with
  | aside | lif | rdc | lpt | wku | creditLast | slot | byte | stray => exact hs
  | fen e undone =>
    refine (attemptsBounded_iff _).mpr ⟨hframes, hcredit, fun was hwas => ?_⟩
    rcases undone with undone | undone
    · cases undone.symm.trans hwas
    · exact hundone was (undone ▸ hwas)
  | entry p e may =>
    rw [setPeer_only]
    refine (attemptsBounded_iff _).mpr ⟨hframes, fun p' o ho => ?_, hundone⟩
    change ((s.setPeer p e).peer p').openCredit = some o at ho
    rw [peer_setPeer] at ho
    split at ho
    · exact hcredit p' o ho
    · split at ho
      · rcases may.openCredit o ho with hlt | hsame | ⟨f, q, hq, heq⟩
        · exact hlt
        · exact hcredit p o hsame
        · exact heq ▸ posted hq
      · exact hcredit p' o ho
  | records frames stand =>
    exact attemptsBounded_of_frames hs (fun f => attemptsOk_of_standsAs (stand f) (hframes f)) rfl rfl
  | take f | accept f | hold f | release f | pop f =>
    exact attemptsBounded_of_set hs rfl (attemptsOk_of_place rfl rfl) rfl rfl
  | reject f d was attempts => exact attemptsBounded_of_set hs rfl (attemptsOk_done attempts) rfl rfl
  | post f q was number attempts => exact attemptsBounded_of_set hs rfl (attemptsOk_queued attempts) rfl rfl
  | finish f q d was attempts =>
    have hq : q.attempts < Config.maxAttempts := posted (f := f) (by rw [was]; rfl)
    exact attemptsBounded_of_set hs rfl (attemptsOk_done (attempts ▸ hq.le)) rfl rfl
  | claim f q was =>
    have hq : q.attempts < Config.maxAttempts := posted (f := f) (by rw [was]; rfl)
    exact attemptsBounded_of_set hs (r := .sending q false) rfl (attemptsOk_sending hq) rfl rfl
  | requeue f q c n slot was attempts =>
    have he := enqueue_only (s.setSlot none) f { q with attempts := n }
    exact attemptsBounded_of_set hs (r := .queued { q with attempts := n }) (frames_enqueue _ f _)
      (attemptsOk_queued attempts) (by rw [he]; rfl) (by rw [he]; rfl)
  | settle f q c d x e slot was entered attempts undone =>
    have hq : q.attempts < Config.maxAttempts := posted (f := f) (by rw [was]; rfl)
    have hd : (FrameRecord.done d).AttemptsOk := attemptsOk_done (by omega)
    refine (attemptsBounded_iff _).mpr ⟨forall_frame_of_set (f := f) hframes rfl hd, hcredit, fun w hw => ?_⟩
    rcases undone with undone | undone | undone
    · cases undone.symm.trans hw
    · exact hundone w (undone ▸ hw)
    · cases undone.symm.trans hw
      exact hq
  | restore f d was e slot done kept undone =>
    have hback : (FrameRecord.sending was true).AttemptsOk := attemptsOk_sending (hundone was kept)
    refine (attemptsBounded_iff _).mpr ⟨forall_frame_of_set (f := f) hframes rfl hback, hcredit, fun w hw => ?_⟩
    cases undone.symm.trans hw
  | reset straps mem epoch x sdo pending kept =>
    exact attemptsBounded_afterReset straps mem epoch x sdo pending

/-! ## Counts -/

theorem countsInRange_iff (s : State) : s.CountsInRange ↔
    s.lif.InRange ∧ s.rdc.InRange ∧ s.lpt.further ≤ Config.furtherMax ∧ s.wku.InRange ∧
    ∀ p, (s.peer p).InRange s.c0 := by
  constructor
  · rintro ⟨hidle, hclock, hdata, htimer, hopen, hchain, hstreak, hsweep, hfurther, hwake, hmissed, hheld⟩
    exact ⟨⟨hidle, hclock, hdata, htimer, hopen⟩, ⟨hchain, hstreak, hsweep⟩, hfurther, hwake,
      fun p => ⟨hmissed p, hheld p⟩⟩
  · rintro ⟨hlif, hrdc, hfurther, hwake, hpeer⟩
    exact ⟨hlif.idle, hlif.clockLow, hlif.dataLow, hlif.cellTimer, hlif.openCount, hrdc.chain, hrdc.streak,
      hrdc.sweep, hfurther, hwake, fun p => (hpeer p).missed, fun p => (hpeer p).held⟩

/-- The counts of another state with the same blocks but for frames, queues and marks. -/
theorem countsInRange_of_same {s t : State} (hs : s.CountsInRange) (hl : t.lif = s.lif) (hr : t.rdc = s.rdc)
    (hx : t.lpt = s.lpt) (hw : t.wku = s.wku) (hp : t.peers = s.peers) : t.CountsInRange := by
  rw [countsInRange_iff] at hs ⊢
  simpa only [State.peer, State.c0, hl, hr, hx, hw, hp] using hs

theorem lif_inRange_atReset : (Lif.atReset straps).InRange :=
  ⟨Nat.zero_le _, Nat.zero_le _, Nat.zero_le _, Nat.zero_le _, fun _ opened => nomatch opened⟩

theorem rdc_inRange_atReset : Rdc.atReset.InRange := ⟨Nat.zero_le _, by decide, Nat.zero_le _⟩

theorem countsInRange_afterReset :
    (State.afterReset straps mem epoch x sdo pending).CountsInRange := by
  refine (countsInRange_iff _).mpr
    ⟨lif_inRange_atReset straps, rdc_inRange_atReset, Nat.zero_le _, fun n => ?_, fun p => ?_⟩
  · have := congrArg WakeEntry.counter (wakeEntry_afterReset straps mem epoch x sdo pending n)
    exact this.le.trans (Nat.zero_le _)
  · rw [peer_afterReset]
    exact ⟨Nat.zero_le _, Nat.zero_le _⟩

theorem countsInRange_of_act {s t : State} (h : Act s t) (hs : s.CountsInRange) : t.CountsInRange := by
  obtain ⟨hlif, hrdc, hfurther, hwake, hpeer⟩ := (countsInRange_iff s).mp hs
  cases h with
  | lif l straps counts =>
    have hc0 : (s.withLif l).c0 = s.c0 := congrArg (fun x : Straps => x.credit.val + 1) straps
    exact (countsInRange_iff _).mpr ⟨counts hlif, hrdc, hfurther, hwake, hc0 ▸ hpeer⟩
  | rdc r counts => exact (countsInRange_iff _).mpr ⟨hlif, counts hrdc, hfurther, hwake, hpeer⟩
  | lpt x further => exact (countsInRange_iff _).mpr ⟨hlif, hrdc, further hfurther, hwake, hpeer⟩
  | wku w counters => exact (countsInRange_iff _).mpr ⟨hlif, hrdc, hfurther, counters hwake, hpeer⟩
  | entry p e may =>
    rw [setPeer_only]
    refine (countsInRange_iff _).mpr ⟨hlif, hrdc, hfurther, hwake, fun p' => ?_⟩
    change ((s.setPeer p e).peer p').InRange s.c0
    rw [peer_setPeer]
    split
    · exact hpeer p'
    · split
      · refine ⟨?_, ?_⟩
        · rcases may.missed with h | h
          · exact h
          · exact h ▸ (hpeer p).missed
        · rcases may.held with h | h
          · exact h
          · exact h.trans (hpeer p).held
      · exact hpeer p'
  | requeue f q c n =>
    rw [enqueue_only]
    exact countsInRange_of_same hs rfl rfl rfl rfl rfl
  | reset straps mem epoch x sdo pending kept => exact countsInRange_afterReset straps mem epoch x sdo pending
  | _ => exact countsInRange_of_same hs rfl rfl rfl rfl rfl

end Sys2Proof.Laws
end

section
/-!
SUPPORT. Every shared operation of the model is a sequence of acts: the entries and the records, completion, the slot,
loss and reinitialisation, the window start and its undoing, the outcome, the withdrawal, accept.
-/

namespace Sys2Proof.Laws

open Sys2Proof.Machine

/-! ## Single acts -/

theorem Acts.one {s t : State} (h : Act s t) : Acts s t := Relation.ReflTransGen.single h

theorem Acts.refl (s : State) : Acts s s := Relation.ReflTransGen.refl

/-- What every act keeps, a sequence of acts keeps. -/
theorem Acts.keep {P : State → Prop} (hP : ∀ s t, Act s t → P s → P t) {s t : State} (h : Acts s t) (hs : P s) :
    P t := by
  induction h with
  | refl => exact hs
  | tail _ hlast ih => exact hP _ _ hlast ih

/-- A loop whose body is a sequence of acts. -/
theorem acts_foldl {α : Type} {g : State → α → State} (hg : ∀ s a, Acts s (g s a)) (l : List α) (s : State) :
    Acts s (l.foldl g s) := by
  induction l generalizing s with
  | nil => exact Acts.refl s
  | cons a rest ih => exact (hg s a).trans (ih (g s a))

theorem acts_withLpt {s : State} {x : Lpt} (h : x.further = s.lpt.further) : Acts s (s.withLpt x) :=
  Acts.one (.lpt s x fun hs => h ▸ hs)

theorem acts_latchPeer (s : State) : Acts s s.latchPeer := acts_withLpt rfl
theorem acts_latchJoined (s : State) : Acts s s.latchJoined := acts_withLpt rfl
theorem acts_latchLine (s : State) : Acts s s.latchLine := acts_withLpt rfl
theorem acts_latchExcess (s : State) : Acts s s.latchExcess := acts_withLpt rfl

theorem acts_reportMisuse (s : State) (k : MisuseKind) (f : Option FrameNo) : Acts s (s.reportMisuse k f) := by
  unfold State.reportMisuse
  split
  · exact Acts.one (.lpt s _ fun _ => Nat.zero_le _)
  · exact Acts.one (.lpt s _ fun _ => Nat.min_le_left _ _)

theorem acts_withFen {s : State} {e : Fen} (h : e.undoneFrame = none ∨ e.undoneFrame = s.fen.undoneFrame) :
    Acts s (s.withFen e) := Acts.one (.fen s e h)

/-! ## Entries -/

theorem acts_setPeer {s : State} {p : Pos} {e : PeerEntry} (h : s.EntryMayBe p e) : Acts s (s.setPeer p e) :=
  Acts.one (.entry s p e h)

/-- An entry whose missed count stands, whose held is not above it, and whose open credit frame stands, is gone, or has
attempts below 4. -/
theorem acts_updPeer {s : State} {p : Pos} {g : PeerEntry → PeerEntry}
    (hm : (g (s.peer p)).missed = (s.peer p).missed)
    (hh : (g (s.peer p)).held ≤ s.c0 ∨ (g (s.peer p)).held ≤ (s.peer p).held)
    (ho : ∀ o, (g (s.peer p)).openCredit = some o →
      o.attempts < Config.maxAttempts ∨ (s.peer p).openCredit = some o) : Acts s (s.updPeer p g) :=
  acts_setPeer ⟨.inr hm, hh, fun o h => (ho o h).imp_right .inl⟩

/-- An update of an entry that leaves missed, held and the open credit frame. -/
theorem acts_updPeer_credit {s : State} {p : Pos} {g : PeerEntry → PeerEntry}
    (h : ∀ e, (g e).missed = e.missed ∧ (g e).held = e.held ∧ (g e).openCredit = e.openCredit := by
      exact fun _ => ⟨rfl, rfl, rfl⟩) : Acts s (s.updPeer p g) := by
  obtain ⟨hm, hh, ho⟩ := h (s.peer p)
  exact acts_updPeer hm (.inr hh.le) fun o h => .inr (ho ▸ h)

/-- An update of an entry that leaves missed and held, and settles or sets the open credit frame. -/
theorem acts_updPeer_open {s : State} {p : Pos} {g : PeerEntry → PeerEntry}
    (h : ∀ e, (g e).missed = e.missed ∧ (g e).held ≤ e.held)
    (ho : ∀ o, (g (s.peer p)).openCredit = some o → o.attempts < Config.maxAttempts) : Acts s (s.updPeer p g) :=
  acts_updPeer (h _).1 (.inr (h _).2) fun o h => .inl (ho o h)

theorem settle_keeps (e : PeerEntry) (accepted : Bool) (k : Nat) :
    (e.settle accepted k).missed = e.missed ∧ (e.settle accepted k).held = e.held ∧
    (e.settle accepted k).openCredit = e.openCredit := by
  cases accepted <;> exact ⟨rfl, rfl, rfl⟩

/-! ## Records -/

/-- Records that are changed by one function, and stand as before. -/
theorem acts_mapFrames {s : State} {g : FrameRecord → FrameRecord} (h : ∀ r, (g r).StandsAs r) :
    Acts s (s.mapFrames g) :=
  Acts.one (.records s _ fun f => by simpa using h (s.frame f))

theorem clearCredit_standsAs (r : FrameRecord) (p : Pos) : (r.clearCredit p).StandsAs r := by
  unfold FrameRecord.clearCredit
  split
  · split <;> exact ⟨rfl, rfl, rfl⟩
  · split <;> exact ⟨rfl, rfl, rfl⟩
  · exact .refl r

theorem dropSeq_standsAs (r : FrameRecord) (p : Pos) : (r.dropSeq p).StandsAs r := by
  unfold FrameRecord.dropSeq
  split
  · split <;> exact ⟨rfl, rfl, rfl⟩
  · exact .refl r

theorem standsAs_trans {a b c : FrameRecord} (h : a.StandsAs b) (k : b.StandsAs c) : a.StandsAs c :=
  ⟨h.place.trans k.place, h.postNo.trans k.postNo, h.attempts.trans k.attempts⟩

/-- One record is set, and stands as before. -/
theorem acts_setFrame {s : State} {f : FrameNo} {r : FrameRecord} (h : r.StandsAs (s.frame f)) :
    Acts s (s.setFrame f r) := by
  refine Acts.one (.records s (s.fpl.frames.set f r) fun g => ?_)
  have hg : (s.setFrame f r).frame g = if g = f then r else s.frame g := frame_setFrame s f g r
  change (s.fpl.frames.set f r)[g] = _ at hg
  rw [hg]
  split
  · rename_i e
    exact e ▸ h
  · exact .refl _

/-! ## Completion -/

theorem acts_completeQueued (s : State) (o : Completion) (f : FrameNo) : Acts s (s.completeQueued o f) := by
  unfold State.completeQueued
  split
  · rename_i q was
    exact Acts.one (.finish s f q _ was rfl)
  · exact Acts.refl s

theorem acts_completeAllTo (s : State) (p : Pos) (o : Completion) : Acts s (s.completeAllTo p o) :=
  acts_foldl (fun s f => acts_completeQueued s o f) _ s

/-- The open sequence of a posted frame is settled, its attempts those of the frame or below 4. -/
theorem acts_settleCancelled {s : State} {f : FrameNo} {q : Posted} {n : Nat} (hf : (s.frame f).posted? = some q)
    (hn : n = q.attempts ∨ n < Config.maxAttempts) : Acts s (s.settleCancelled q n) := by
  unfold State.settleCancelled
  split
  · split
    · refine acts_setPeer ⟨.inr rfl, .inr (Nat.le_refl _), fun o ho => ?_⟩
      cases ho
      rcases hn with rfl | hn
      · exact .inr (.inr ⟨f, q, hf, rfl⟩)
      · exact .inl hn
    · exact acts_updPeer_credit
  · exact Acts.refl s

theorem peers_updPeer (s : State) (p : Pos) (g : PeerEntry → PeerEntry) :
    (s.updPeer p g).peers = if p = s.own then s.peers else s.peers.set p (g (s.peer p)) := by
  unfold State.updPeer State.setPeer
  split <;> rfl

/-- The entries after an update depend on the entries and the straps alone. -/
theorem peers_updPeer_congr {s t : State} (hl : t.lif = s.lif) (hp : t.peers = s.peers) (p : Pos)
    (g : PeerEntry → PeerEntry) : (t.updPeer p g).peers = (s.updPeer p g).peers := by
  have hown : t.own = s.own := congrArg (fun l : Lif => l.straps.pos) hl
  have hpeer : t.peer p = s.peer p := by simp [State.peer, hp]
  rw [peers_updPeer, peers_updPeer, hown, hpeer, hp]

/-- The settlement of a cancelled frame's sequence, whatever else has changed before it. -/
theorem settleCancelled_of {s t : State} (hl : t.lif = s.lif) (hp : t.peers = s.peers) (q : Posted) (n : Nat) :
    t.settleCancelled q n = { t with peers := (s.settleCancelled q n).peers } := by
  have hpeers : (t.settleCancelled q n).peers = (s.settleCancelled q n).peers := by
    unfold State.settleCancelled
    split
    · split
      · exact peers_updPeer_congr hl hp _ _
      · exact peers_updPeer_congr hl hp _ _
    · exact hp
  rw [settleCancelled_only t, hpeers]

/-- A frame is cancelled: the entries are those after the settlement of its sequence, and it completes. -/
theorem completeCancelled_of {s t : State} (hl : t.lif = s.lif) (hp : t.peers = s.peers) (f : FrameNo) (q : Posted)
    (n : Nat) : t.completeCancelled f q n =
      ({ t with peers := (s.settleCancelled q n).peers } : State).complete f (q.doneRecord .cancelled n) := by
  unfold State.completeCancelled
  exact settleCancelled_of (t := t.complete f (q.doneRecord .cancelled n)) hl hp q n

/-! ## The frame in the slot -/

/-- The frame in the slot completes, and the slot holds what is no frame. -/
theorem acts_settleSlot {s : State} {f : FrameNo} {q : Posted} {c : Bool} {d : DoneRecord}
    (slot : s.osc.slot = some (.frame f)) (was : s.frame f = .sending q c) (attempts : d.attempts ≤ q.attempts + 1) :
    Acts s ((s.setSlot none).complete f d) :=
  Acts.one (.settle s f q c d none s.fen slot was (by simp) attempts (.inr (.inl rfl)))

/-- The frame in the slot completes CANCELLED, its sequence settled in the same act. -/
theorem acts_cancelSlot {s : State} {f : FrameNo} {q : Posted} {c : Bool} {n : Nat} {x : Option Transmission} {e : Fen}
    (slot : s.osc.slot = some (.frame f)) (was : s.frame f = .sending q c)
    (hn : n = q.attempts ∨ n = q.attempts + 1 ∧ n < Config.maxAttempts) (hx : ∀ g, x ≠ some (.frame g))
    (he : e.undoneFrame = none ∨ e.undoneFrame = s.fen.undoneFrame ∨ e.undoneFrame = some q) :
    Acts s (((({ s with peers := (s.settleCancelled q n).peers } : State).setSlot x).complete f
      (q.doneRecord .cancelled n)).withFen e) := by
  have hf : (s.frame f).posted? = some q := by rw [was]; rfl
  have hd : (q.doneRecord .cancelled n).attempts ≤ q.attempts + 1 := by
    change n ≤ q.attempts + 1
    omega
  have settled := acts_settleCancelled hf (hn.imp_right And.right)
  rw [settleCancelled_only] at settled
  exact settled.trans (Acts.one
    (.settle { s with peers := (s.settleCancelled q n).peers } f q c _ x e slot was hx hd he))

/-- The frame in the slot completes CANCELLED after one more attempt. -/
theorem acts_cancelTried {s : State} {f : FrameNo} {q : Posted} {c : Bool} (slot : s.osc.slot = some (.frame f))
    (was : s.frame f = .sending q c) (hn : q.attempts + 1 < Config.maxAttempts) :
    Acts s ((s.setSlot none).completeCancelled f q (q.attempts + 1)) := by
  rw [completeCancelled_of (s := s) (t := s.setSlot none) rfl rfl]
  exact acts_cancelSlot (x := none) (e := s.fen) slot was (.inr ⟨rfl, hn⟩) (by simp) (.inr (.inl rfl))

/-- The slot holds no frame before or after. -/
theorem acts_setSlot {s : State} {x : Option Transmission} (left : ∀ f, s.osc.slot ≠ some (.frame f))
    (entered : ∀ f, x ≠ some (.frame f)) : Acts s (s.setSlot x) :=
  Acts.one (.slot s x (fun f h => absurd h (left f)) entered)

theorem acts_losePeer {s : State} {p : Pos} {m : Nat} {o : Completion} (hm : m ≤ Config.maxMissed) :
    Acts s (s.losePeer p m o) := by
  unfold State.losePeer
  have lost : Acts s (s.setPeer p (.lost m)) := acts_setPeer ⟨.inl hm, .inl (Nat.zero_le _), fun o h => nomatch h⟩
  refine (lost.trans ?_).trans (acts_latchPeer _)
  exact (acts_mapFrames fun r => clearCredit_standsAs r p).trans (acts_completeAllTo _ p o)

theorem acts_reinitPeer (s : State) (p : Pos) : Acts s (s.reinitPeer p) := by
  unfold State.reinitPeer
  have joined : Acts s (s.setPeer p (.reinitialised s.c0)) :=
    acts_setPeer ⟨.inl (Nat.zero_le _), .inl (Nat.zero_le _), fun o h => nomatch h⟩
  refine (joined.trans ?_).trans (acts_latchPeer _)
  exact acts_mapFrames fun r => standsAs_trans (dropSeq_standsAs _ p) (clearCredit_standsAs r p)

/-- A QUEUED frame that is chosen enters the slot. -/
theorem acts_claimSlot {s : State} (empty : s.osc.slot = none) (x : Transmission) : Acts s (s.claimSlot x) := by
  have none_left : ∀ f, s.osc.slot ≠ some (.frame f) := fun f => by rw [empty]; simp
  cases x with
  | frame f =>
    simp only [State.claimSlot]
    split
    · rename_i q was
      exact Acts.one (.claim s f q was empty)
    · exact Acts.refl s
  | creditRetry p => exact acts_setSlot none_left (by simp)
  | newCredit p o => exact acts_setSlot none_left (by simp)
  | empty => exact acts_setSlot none_left (by simp)

/-! ## The outcome and the withdrawal -/

theorem acts_settleMessage {s : State} {f : FrameNo} {q : Posted} {c : Bool} (slot : s.osc.slot = some (.frame f))
    (was : s.frame f = .sending q c) (p : Pos) (a : Answer) : Acts s ((s.setSlot none).settleMessage f q c p a) := by
  have done : ∀ o n, n ≤ q.attempts + 1 → Acts s ((s.setSlot none).complete f (q.doneRecord o n)) := fun o n hn =>
    acts_settleSlot slot was hn
  unfold State.settleMessage
  cases a with
  | accepted =>
    refine (done _ _ (Nat.le_succ _)).trans (acts_updPeer rfl (.inr (Nat.sub_le _ _)) fun o h => .inr h)
  | refused =>
    exact (done _ _ (Nat.le_succ _)).trans (acts_updPeer rfl (.inl (Nat.zero_le _)) fun o h => .inr h)
  | damaged | silent | collided =>
    dsimp only
    split
    · exact (done _ _ (Nat.le_refl _)).trans (acts_losePeer (Nat.zero_le _))
    · rename_i hn
      split
      · exact acts_cancelTried slot was (by omega)
      · exact Acts.one (.requeue s f q c _ slot was (by omega))

theorem acts_settleNewCredit (s : State) (p : Pos) (o : OpenSeq) (a : Answer) : Acts s (s.settleNewCredit p o a) := by
  unfold State.settleNewCredit
  cases a with
  | accepted | refused => exact acts_updPeer_credit fun e => settle_keeps e _ _
  | damaged | silent | collided =>
    exact acts_updPeer_open (fun e => ⟨rfl, Nat.le_refl _⟩) fun o h => by cases h; simp [Config.maxAttempts]

theorem acts_settleRetry (s : State) (p : Pos) (o : OpenCredit) (a : Answer) : Acts s (s.settleRetry p o a) := by
  unfold State.settleRetry
  cases a with
  | accepted | refused =>
    exact acts_updPeer_open (fun e => ⟨rfl, Nat.le_refl _⟩) fun o h => nomatch h
  | damaged | silent | collided =>
    dsimp only
    split
    · exact acts_losePeer (Nat.zero_le _)
    · rename_i hn
      exact acts_updPeer_open (fun e => ⟨rfl, Nat.le_refl _⟩) fun o' h => by cases h; exact Nat.lt_of_not_le hn

/-- The slot empties of a transmission that is no frame, or of a frame that is not SENDING. -/
theorem acts_emptySlot {s : State} (left : ∀ f, s.osc.slot = some (.frame f) → (s.frame f).place ≠ .slot) :
    Acts s (s.setSlot none) := Acts.one (.slot s none left (by simp))

/-- A frame whose record is not SENDING has another place than the slot. -/
theorem place_ne_slot {r : FrameRecord} (h : ∀ q c, r ≠ .sending q c) : r.place ≠ .slot := fun slot =>
  have ⟨q, c, was⟩ := sending_of_place slot
  h q c was

theorem acts_settleWindow {s : State} {x : Transmission} (slot : s.osc.slot = some x) (collided : Bool) (a b : Level) :
    Acts s (s.settleWindow x collided a b) := by
  unfold State.settleWindow
  cases x with
  | frame f =>
    dsimp only
    split
    · rename_i q c was
      split
      · exact acts_settleMessage slot was _ _
      · split
        · exact acts_settleSlot slot was (Nat.le_refl _)
        · exact acts_settleSlot slot was (Nat.le_succ _)
    · rename_i was
      refine acts_emptySlot fun g hg => ?_
      cases slot.symm.trans hg
      exact place_ne_slot was
  | creditRetry p =>
    refine (acts_emptySlot fun g hg => by cases slot.symm.trans hg).trans ?_
    dsimp only
    split
    · exact acts_settleRetry _ _ _ _
    · exact Acts.refl _
  | newCredit p o =>
    refine (acts_emptySlot fun g hg => by cases slot.symm.trans hg).trans ?_
    cases o with
    | none => exact Acts.refl _
    | some o => exact acts_settleNewCredit _ _ _ _
  | empty => exact acts_emptySlot fun g hg => by cases slot.symm.trans hg

theorem acts_withdraw (s : State) : Acts s s.withdraw := by
  unfold State.withdraw
  dsimp only
  split
  · exact acts_emptySlot (by simp [*])
  · exact acts_emptySlot (by simp [*])
  · exact acts_emptySlot (by simp [*])
  · rename_i f slot
    split
    · rename_i q c was
      split
      · exact acts_settleSlot slot was (Nat.le_refl _)
      · rename_i hn
        split
        · exact acts_cancelTried slot was (by omega)
        · exact Acts.one (.requeue s f q c _ slot was (by omega))
    · rename_i was
      refine acts_emptySlot fun g hg => ?_
      cases slot.symm.trans hg
      exact place_ne_slot was
  · refine (acts_emptySlot (by simp [*])).trans ?_
    exact acts_updPeer_open (fun e => ⟨rfl, Nat.le_refl _⟩) fun o h => by cases h; simp [Config.maxAttempts]
  · refine (acts_emptySlot (by simp [*])).trans ?_
    split
    · split
      · exact Acts.refl _
      · split
        · exact acts_updPeer_open (fun e => ⟨rfl, Nat.le_refl _⟩) fun o h => nomatch h
        · rename_i hn
          exact acts_updPeer_open (fun e => ⟨rfl, Nat.le_refl _⟩) fun o' h => by cases h; exact Nat.lt_of_not_le hn
    · exact Acts.refl _

/-! ## The window start and its undoing -/

theorem acts_setCreditLast (s : State) (flag : Bool) : Acts s (s.setCreditLast flag) := Acts.one (.creditLast s flag)

theorem acts_beginTx (s : State) (header payload : List Byte) : Acts s (s.beginTx header payload) :=
  acts_withFen (.inr rfl)

/-- What a mark would undo is no cancellation: no frame would come back. -/
theorem acts_noteUndo {s : State} {u : StartUndo} (h : ∀ f was c, u ≠ .cancelled f was c) :
    Acts s (s.noteUndo u) := by
  refine acts_withFen (.inl ?_)
  cases hs : s.fen.undo with
  | none => simp [Fen.undoneFrame]
  | some x => cases u <;> simp_all [Fen.undoneFrame]

/-- What a mark would bring back after the cancel check: the frame that it completed, if a mark can follow at all. -/
theorem undoneFrame_noteUndo_cancelled (s : State) (f : FrameNo) (q : Posted) (flag : Bool) :
    (s.noteUndo (.cancelled f q flag)).fen.undoneFrame = none ∨
    (s.noteUndo (.cancelled f q flag)).fen.undoneFrame = some q := by
  unfold State.noteUndo
  cases s.fen.undo with
  | none => exact .inl rfl
  | some x => exact .inr rfl

theorem acts_startEmpty {s : State} (left : ∀ f, s.osc.slot ≠ some (.frame f)) : Acts s s.startEmpty :=
  (acts_setSlot left (by simp)).trans (acts_beginTx _ _ _)

theorem acts_startFrame {s : State} {f : FrameNo} {q : Posted} {c : Bool} (slot : s.osc.slot = some (.frame f))
    (was : s.frame f = .sending q c) : Acts s (s.startFrame f q c) := by
  unfold State.startFrame
  split
  · rw [completeCancelled_of (s := s) rfl rfl]
    exact acts_cancelSlot (x := some .empty) slot was (.inl rfl) (by simp)
      ((undoneFrame_noteUndo_cancelled _ f q _).imp_right .inr)
  · dsimp only
    split
    · refine (((?_ : Acts s _).trans (acts_setCreditLast _ _)).trans (acts_beginTx _ _ _)).trans
        (acts_noteUndo (by simp))
      refine (acts_setFrame ?_).trans (acts_updPeer_credit)
      rw [was]
      exact ⟨rfl, rfl, rfl⟩
    · exact ((acts_setCreditLast _ _).trans (acts_beginTx _ _ _)).trans (acts_noteUndo (by simp))
    · exact ((acts_setCreditLast _ _).trans (acts_beginTx _ _ _)).trans (acts_noteUndo (by simp))

theorem acts_startCredit {s : State} (p : Pos) (left : ∀ f, s.osc.slot ≠ some (.frame f)) :
    Acts s (s.startCredit p) := by
  unfold State.startCredit
  dsimp only
  split
  · exact ((acts_setCreditLast s true).trans (acts_startEmpty left)).trans (acts_noteUndo (by simp))
  · refine ((((?_ : Acts s _).trans (acts_setSlot ?_ (by simp))).trans (acts_setCreditLast _ _)).trans
      (acts_beginTx _ _ _)).trans (acts_noteUndo (by simp))
    · exact acts_updPeer_credit
    · rw [updPeer_only]
      exact left

theorem acts_startWindow (s : State) : Acts s s.startWindow := by
  unfold State.startWindow
  split
  · exact Acts.refl s
  · rename_i f slot
    split
    · rename_i q c was
      exact acts_startFrame slot was
    · exact Acts.refl s
  · split
    · exact ((acts_setCreditLast _ _).trans (acts_beginTx _ _ _)).trans (acts_noteUndo (by simp))
    · exact Acts.refl s
  · exact acts_startCredit _ (by simp [*])
  · exact (acts_startEmpty (by simp [*])).trans (acts_noteUndo (by simp))

end Sys2Proof.Laws
end

section
/-!
SUPPORT. More operations as sequences of acts: the undoing of a window start, what a window of another station brings,
the edges and counts of the line, the leaving and the start of a round, the cell-time.
-/

namespace Sys2Proof.Laws

open Sys2Proof.Machine

/-! ## The undoing of a window start -/

theorem updPeer_withFen (s : State) (p : Pos) (g : PeerEntry → PeerEntry) (e : Fen) :
    (s.updPeer p g).withFen e = (s.withFen e).updPeer p g := by
  rw [updPeer_only s, updPeer_only (s.withFen e), peers_updPeer_congr (s := s) (t := s.withFen e) rfl rfl]
  rfl

/-- A window start is undone, and with it what a mark would undo. -/
theorem acts_undoStart {s : State} {u : StartUndo} {e : Fen}
    (kept : ∀ f was flag, u = .cancelled f was flag → s.fen.undoneFrame = some was)
    (undone : e.undoneFrame = none) :
    Acts s ((s.undoStart u).withFen e) := by
  have cleared : ∀ t : State, Acts t (t.withFen e) := fun t => acts_withFen (.inl undone)
  unfold State.undoStart
  cases u with
  | header flag => exact (acts_setCreditLast s flag).trans (cleared _)
  | grantBuilt f p k flag =>
    have settled : Acts s ((s.updPeer p (fun e => e.grantReturned k)).setCreditLast flag) :=
      (acts_updPeer_credit).trans (acts_setCreditLast _ _)
    dsimp only
    split
    · rename_i q c was
      refine (settled.trans (acts_setFrame ?_)).trans (cleared _)
      rw [was]
      exact ⟨rfl, rfl, rfl⟩
    · exact settled.trans (cleared _)
  | cancelled f was flag =>
    refine (acts_setCreditLast s flag).trans ?_
    dsimp only
    split
    · rename_i d done slot
      have restored := Acts.one (.restore (s.setCreditLast flag) f d was e slot done (kept f was flag rfl) undone)
      split
      · split
        · rw [updPeer_withFen]
          exact restored.trans (acts_updPeer_open (fun e => ⟨rfl, Nat.le_refl _⟩) fun o h => nomatch h)
        · rw [updPeer_withFen]
          exact restored.trans acts_updPeer_credit
      · exact restored
    · exact cleared _
  | creditBuilt p k flag =>
    have settled : Acts s ((s.updPeer p (fun e => e.grantReturned k)).setCreditLast flag) :=
      (acts_updPeer_credit).trans (acts_setCreditLast _ _)
    refine Relation.ReflTransGen.trans ?_ (cleared _)
    dsimp only
    split
    · exact settled.trans (acts_setSlot (by simp [*]) (by simp))
    · exact settled.trans (acts_setSlot (by simp [*]) (by simp))
    · exact settled

/-! ## Windows of other owners -/

theorem storedImage_length (h : HeaderFields) (payload : List Byte) :
    (storedImage h payload).length = Config.frameBytes := by
  simp [storedImage, inboundDescriptor, bytesOf16, Config.frameBytes, Config.maxLength]

theorem acts_accept (s : State) (h : HeaderFields) (payload : List Byte) : Acts s (s.accept h payload) := by
  unfold State.accept
  split
  · exact Acts.refl s
  · rename_i f rest head
    exact Acts.one (.accept s f rest _ _ head (storedImage_length h payload))

theorem acts_applyGrant (s : State) (p : Pos) (g : Nat) : Acts s (s.applyGrant p g) := by
  have clamped : Acts s (s.updPeer p (fun e => { e with held := min ((s.peer p).held + g) s.c0 })) :=
    acts_updPeer rfl (.inl (Nat.min_le_right _ _)) fun o h => .inr h
  unfold State.applyGrant
  dsimp only
  split
  · exact clamped.trans (acts_latchExcess _)
  · exact clamped

/-- A match counter stays below the required matches, which are at most 15. -/
theorem count_le {e : WakeEntry} (h : e.counter ≤ 15) (x : HeaderFields) : (e.count x).counter ≤ 15 := by
  unfold WakeEntry.count
  split
  · rename_i hc
    have hlt : e.counter < e.settings0.toNat % 16 := of_decide_eq_true (Bool.and_eq_true_iff.mp hc).2
    show e.counter + 1 ≤ 15
    omega
  · exact h

theorem acts_presentToWake (s : State) (h : HeaderFields) : Acts s (s.presentToWake h) := by
  unfold State.presentToWake
  split
  · refine Acts.one (.wku s _ fun hs n => ?_)
    simpa [State.wakeEntry] using count_le (hs n) h
  · exact Acts.refl s

theorem acts_applyDecision (s : State) (h : HeaderFields) (good : Bool) (payload : List Byte) :
    Acts s (s.applyDecision h good payload) := by
  unfold State.applyDecision
  split
  · exact Acts.refl s
  · split
    · split
      · refine (((acts_accept s h payload).trans ?_).trans (acts_applyGrant _ _ _)).trans (acts_presentToWake _ _)
        exact acts_updPeer_credit
      · exact Acts.refl s
    · split
      · exact (acts_updPeer_credit).trans (acts_applyGrant _ _ _)
      · exact Acts.refl s
    · split
      · exact (acts_accept s h payload).trans (acts_presentToWake _ _)
      · exact Acts.refl s

/-! ## Edges and counts -/

theorem acts_withLif {s : State} {l : Lif} (counts : s.lif.InRange → l.InRange)
    (straps : l.straps = s.lif.straps := by rfl) : Acts s (s.withLif l) := Acts.one (.lif s l straps counts)

theorem acts_withRdc {s : State} {r : Rdc} (counts : s.rdc.InRange → r.InRange) : Acts s (s.withRdc r) :=
  Acts.one (.rdc s r counts)

/-- The Round Controller's counts are kept. -/
theorem acts_withRdc_same {s : State} {r : Rdc} (hc : r.chain = s.rdc.chain := by rfl)
    (hs : r.streak = s.rdc.streak := by rfl) (hw : r.sweep = s.rdc.sweep := by rfl) : Acts s (s.withRdc r) :=
  acts_withRdc fun h => ⟨hc ▸ h.chain, hs ▸ h.streak, hw ▸ h.sweep⟩

theorem acts_fall (s : State) (clocking drives : Bool) : Acts s (s.fall clocking drives) :=
  acts_withLif fun _ => ⟨Nat.zero_le _, Nat.zero_le _, Nat.zero_le _, Nat.zero_le _, fun _ h => nomatch h⟩

theorem acts_rise (s : State) (clocking drives : Bool) (sample : Level) : Acts s (s.rise clocking drives sample) :=
  acts_withLif fun h => ⟨Nat.zero_le _, Nat.zero_le _, Nat.zero_le _, Nat.zero_le _, h.openCount⟩

/-- A count that goes on or restarts stays in its range. -/
theorem ite_zero_le {c : Prop} [Decidable c] {n m : Nat} (h : n ≤ m) : (if c then 0 else n) ≤ m := by
  split
  · exact Nat.zero_le _
  · exact h

/-- A count that saturates, or restarts, stays in its range. -/
theorem ite_le_of_min {c : Prop} [Decidable c] {n m : Nat} : (if c then min m n else 0) ≤ m := by
  split
  · exact Nat.min_le_left _ _
  · exact Nat.zero_le _

theorem elapse_inRange (l : Lif) (n : Nat) : (l.elapse n).InRange := by
  refine ⟨ite_le_of_min, ite_le_of_min, ite_le_of_min, ?_, fun c h => ?_⟩
  · unfold Lif.elapse
    exact ite_zero_le (Nat.min_le_left _ _)
  · obtain ⟨b, -, rfl⟩ := Option.map_eq_some_iff.mp h
    exact Nat.min_le_left _ _

theorem sweep_elapse_le (w : SweepTimer) (n : Nat) : (w.elapse n).count ≤ Config.sweepInterval := by
  cases w with
  | running m => exact Nat.min_le_left _ _
  | stopped | held => exact Nat.zero_le _

theorem acts_elapse (s : State) (n : Nat) : Acts s (s.elapse n) :=
  (acts_withLif (l := s.lif.elapse n) fun _ => elapse_inRange _ _).trans
    (acts_withRdc fun h => ⟨h.chain, h.streak, sweep_elapse_le _ _⟩)

theorem acts_quietUntil (s : State) (n : Nat) : Acts s (s.quietUntil n) := by
  refine Relation.ReflTransGen.trans (acts_withLif (fun h => ?_) ?_) (acts_elapse _ _)
  · unfold Lif.quiet
    split
    · exact h
    · exact ⟨Nat.zero_le _, Nat.zero_le _, Nat.zero_le _, h.cellTimer, h.openCount⟩
  · unfold Lif.quiet
    split <;> rfl

theorem acts_holdLow (s : State) (wire : Wire) : Acts s (s.holdLow wire) := by
  cases wire with
  | wclk | wdat =>
    refine Relation.ReflTransGen.trans (acts_withLif fun h => ?_) (acts_elapse _ _)
    exact ⟨h.idle, h.clockLow, h.dataLow, h.cellTimer, h.openCount⟩

theorem acts_restartIdle (s : State) : Acts s s.restartIdle :=
  acts_withLif fun h => ⟨Nat.zero_le _, h.clockLow, h.dataLow, h.cellTimer, h.openCount⟩

theorem acts_beginOpen (s : State) : Acts s s.beginOpen :=
  acts_withLif fun h =>
    ⟨Nat.zero_le _, h.clockLow, Nat.zero_le _, h.cellTimer, fun c hc => by cases hc; exact Nat.zero_le _⟩

theorem released_inRange {l : Lif} (h : l.InRange) : l.released.InRange :=
  ⟨h.idle, ite_zero_le h.clockLow, ite_zero_le h.dataLow, Nat.zero_le _, fun _ hc => nomatch hc⟩

/-! ## Leaving the round -/

theorem acts_leaveRound (s : State) (entered : Participation) : Acts s (s.leaveRound entered) := by
  have quiet := (acts_withdraw s).trans (acts_withLif released_inRange)
  refine (quiet.trans ?_).trans (acts_withRdc fun _ => ?_)
  · exact acts_withFen (.inl rfl)
  · exact ⟨Nat.zero_le _, by simp [Config.maxStreak], Nat.zero_le _⟩

theorem acts_enterFault (s : State) : Acts s s.enterFault :=
  ((acts_leaveRound s _).trans (acts_restartIdle _)).trans (acts_latchLine _)

theorem acts_enterListening (s : State) : Acts s s.enterListening := by
  have entered := (acts_leaveRound s .listening).trans (acts_restartIdle _)
  unfold State.enterListening
  dsimp only
  split
  · exact entered.trans (acts_enterFault _)
  · exact entered

theorem acts_syncLoss (s : State) : Acts s s.syncLoss := (acts_latchLine s).trans (acts_enterListening _)

theorem acts_enterConflict (s : State) : Acts s s.enterConflict := (acts_leaveRound s _).trans (acts_latchLine _)

theorem acts_enterObserving (s : State) : Acts s s.enterObserving :=
  acts_withRdc fun h => ⟨Nat.zero_le _, h.streak, Nat.zero_le _⟩

theorem acts_takeStuck (s : State) : Acts s s.takeStuck := by
  unfold State.takeStuck
  split
  case h_5 | h_6 => exact Acts.refl s
  all_goals exact acts_enterFault s

/-! ## Starting a round -/

theorem acts_takeJoins (s : State) : Acts s s.takeJoins := by
  unfold State.takeJoins
  split
  · split
    · exact acts_withRdc_same
    · exact Acts.refl s
  · split
    · exact acts_withRdc_same
    · exact Acts.refl s
  all_goals exact Acts.refl s

theorem acts_beginRound {s : State} {chain : Nat} (h : chain ≤ Config.chainLimit) : Acts s (s.beginRound chain) :=
  ((acts_withRdc (by exact fun hs => ⟨h, hs.streak, Nat.zero_le _⟩)).trans (acts_withFen (.inl (by rfl)))).trans
    (acts_takeJoins _)

theorem acts_startRound (s : State) (opener : Bool) : Acts s (s.startRound opener) :=
  (acts_beginRound (by decide)).trans (acts_fall _ _ _)

theorem acts_tick (s : State) : Acts s s.tick := by
  unfold State.tick
  split
  · exact Acts.refl s
  · refine (acts_elapse s 1).trans ?_
    unfold State.takeDue
    split
    · exact acts_takeStuck _
    · split
      · exact acts_enterObserving _
      · split
        · exact acts_enterListening _
        · split
          · exact acts_enterListening _
          · split
            · exact acts_startRound _ _
            · split
              · exact acts_beginOpen _
              · exact Acts.refl _

end Sys2Proof.Laws
end

section
/-!
SUPPORT. The operations of the line commands as sequences of acts: the CARRY cell, the fields, the windows, the resets.
-/

namespace Sys2Proof.Laws

open Sys2Proof.Machine

/-! ## Between rounds, the CARRY cell -/

theorem acts_sweepUp (s : State) : Acts s s.sweepUp := by
  unfold State.sweepUp
  split
  · split
    · exact acts_elapse _ _
    · exact acts_withRdc fun h => ⟨h.chain, h.streak, Nat.le_refl _⟩
  all_goals exact Acts.refl s

theorem acts_dataFalls (s : State) : Acts s s.dataFalls :=
  acts_withLif fun h => ⟨Nat.zero_le _, Nat.zero_le _, Nat.zero_le _, h.cellTimer, h.openCount⟩

theorem acts_dataRise (s : State) : Acts s s.dataRise :=
  acts_withLif fun h => ⟨Nat.zero_le _, h.clockLow, Nat.zero_le _, h.cellTimer, h.openCount⟩

theorem acts_beginCarry (s : State) : Acts s s.beginCarry := (acts_withRdc_same).trans (acts_fall _ _ _)

theorem acts_completeObservation (s : State) : Acts s s.completeObservation := by
  unfold State.completeObservation
  split
  · exact acts_withRdc_same
  · exact Acts.refl s

theorem acts_startChained (s : State) : Acts s s.startChained :=
  ((acts_completeObservation s).trans (acts_beginRound (Nat.min_le_left _ _))).trans (acts_fall _ _ _)

theorem acts_endRound (s : State) : Acts s s.endRound := by
  refine (((acts_completeObservation s).trans (acts_withRdc fun h => ?_)).trans (acts_withFen (.inl ?_))).trans
    (acts_rise _ _ _ _)
  · exact ⟨Nat.zero_le _, h.streak, Nat.zero_le _⟩
  · rfl

/-! ## Fields -/

theorem acts_conflictAtCell (s : State) : Acts s s.conflictAtCell := (acts_rise s _ _ _).trans (acts_enterConflict _)

theorem acts_endLead (s : State) (others : BitVec 4) : Acts s (s.endLead others) :=
  (acts_withRdc_same).trans (acts_rise _ _ _ _)

theorem acts_countPresence (cells : Cells) (s : State) (p : Pos) : Acts s (s.countPresence cells p) := by
  have counted : ∀ m, m ≤ Config.maxMissed → Acts s (s.setPeer p { s.peer p with missed := m }) := fun m hm =>
    acts_setPeer ⟨.inl hm, .inr (Nat.le_refl _), fun o h => .inr (.inl h)⟩
  unfold State.countPresence
  dsimp only
  split
  · exact Acts.refl s
  · split
    · exact counted 0 (Nat.zero_le _)
    · split
      · exact acts_losePeer (Nat.le_refl _)
      · exact counted _ (by omega)

theorem acts_endPresence (s : State) (others : Cells) : Acts s (s.endPresence others) := by
  unfold State.endPresence
  dsimp only
  split
  · exact acts_conflictAtCell s
  · refine Relation.ReflTransGen.trans ?_ (acts_rise _ _ _ _)
    split
    · exact Relation.ReflTransGen.trans (acts_withRdc_same) (acts_foldl (acts_countPresence _) _ _)
    · exact acts_withRdc_same

theorem acts_memberJoins (s : State) (cells : Cells) : Acts s (s.memberJoins cells) := by
  have joined : Acts s (s.peerPositions.foldl (State.processJoin cells) s) := by
    refine acts_foldl (fun s p => ?_) _ _
    unfold State.processJoin
    split
    · exact acts_reinitPeer s p
    · exact Acts.refl s
  unfold State.memberJoins
  dsimp only
  split
  · exact joined.trans (acts_withRdc_same)
  · exact joined

theorem acts_setEntry (cells : Cells) (s : State) (p : Pos) : Acts s (s.setEntry cells p) := by
  unfold State.setEntry
  split
  · exact acts_reinitPeer s p
  · split
    · exact acts_losePeer (Nat.zero_le _)
    · exact acts_completeAllTo s p _

theorem acts_ownJoin (s : State) (cells : Cells) : Acts s (s.ownJoin cells) :=
  ((acts_foldl (acts_setEntry cells) _ s).trans (acts_withRdc_same)).trans (acts_latchJoined _)

theorem acts_endJoin (s : State) (others : Cells) : Acts s (s.endJoin others) := by
  unfold State.endJoin
  dsimp only
  refine (Relation.ReflTransGen.trans ?_ (acts_withRdc_same)).trans (acts_rise _ _ _ _)
  split
  · exact acts_memberJoins s _
  · exact acts_ownJoin s _
  all_goals exact Acts.refl s

theorem acts_ownClaim {s : State} (empty : s.osc.slot = none) (others : Level) : Acts s (s.ownClaim others) := by
  unfold State.ownClaim
  split
  · exact ((acts_claimSlot empty _).trans (acts_withRdc_same)).trans (acts_rise _ _ _ _)
  · split
    · exact acts_conflictAtCell s
    · exact (acts_withRdc_same).trans (acts_rise _ _ _ _)

theorem acts_endClaim (s : State) (others : Cells) : Acts s (s.endClaim others) := by
  unfold State.endClaim
  dsimp only
  split
  · exact (acts_withRdc_same).trans (acts_rise _ _ _ _)
  · refine ((acts_withRdc_same).trans (acts_withFen (.inl ?_))).trans (acts_rise _ _ _ _)
    rfl

/-! ## Windows -/

theorem acts_beginOwnWindow (s : State) : Acts s s.beginOwnWindow := (acts_startWindow s).trans (acts_fall _ _ _)

theorem acts_noteCollision (s : State) (n : Nat) : Acts s (s.noteCollision n) := acts_withFen (.inl rfl)

theorem acts_compareCell (s : State) (n : Nat) (others : Level) : Acts s (s.compareCell n others) := by
  unfold State.compareCell
  split
  · exact acts_noteCollision s n
  · exact Acts.refl s

theorem acts_collide (s : State) (n : Nat) : Acts s (s.collide n) := (acts_noteCollision s n).trans (acts_rise _ _ _ _)

theorem acts_readOwnHeader (s : State) : Acts s s.readOwnHeader := by
  rw [readOwnHeader_only]
  exact acts_withFen (.inr rfl)

theorem acts_readOwnPayload (s : State) : Acts s s.readOwnPayload := by
  rw [readOwnPayload_only]
  exact acts_withFen (.inr rfl)

theorem acts_countStreak (s : State) (collided : Bool) : Acts s (s.countStreak collided) := by
  unfold State.countStreak
  split
  · split
    · exact acts_enterConflict s
    · rename_i hlt
      exact acts_withRdc fun h => ⟨h.chain, Nat.lt_of_not_le hlt, h.sweep⟩
  · exact acts_withRdc fun h => ⟨h.chain, by simp [Config.maxStreak], h.sweep⟩

theorem acts_settleEmpty {s : State} (empty : s.osc.slot = some .empty) : Acts s s.settleEmpty := by
  have slot : s.readOwnHeader.osc.slot = some .empty := by rw [readOwnHeader_only, empty]
  refine (((((acts_readOwnHeader s).trans (acts_setSlot ?_ (by simp))).trans (acts_withRdc_same)).trans
    (acts_withFen (.inl ?_))).trans (acts_rise _ _ _ _)).trans (acts_countStreak _ _)
  · simp [slot]
  · rfl

/-- The last cell of a field of the window: the Frame Engine's marks, the next stage, the rise. -/
theorem acts_toStage {s : State} {e : Fen} {stage : Stage} {clocking drives : Bool} {sample : Level}
    (undone : e.undoneFrame = none ∨ e.undoneFrame = s.fen.undoneFrame) :
    Acts s (((s.withFen e).withRdc { s.rdc with stage := stage }).rise clocking drives sample) :=
  ((acts_withFen undone).trans (acts_withRdc_same)).trans (acts_rise _ _ _ _)

theorem acts_endHeader (s : State) (bytes : List Byte) : Acts s (s.endHeader bytes) := by
  unfold State.endHeader
  dsimp only
  split
  · split
    · exact acts_toStage (.inl (by rfl))
    · exact Relation.ReflTransGen.trans (acts_toStage (.inl (by rfl))) (acts_syncLoss _)
  · exact acts_toStage (.inl (by rfl))

theorem acts_sizeWindow (s : State) (n : Nat) (stage : Stage) : Acts s (s.sizeWindow n stage) :=
  Relation.ReflTransGen.trans (acts_withFen (.inr (by rfl))) (acts_withRdc_same)

theorem acts_undoMark {s : State} {u : Undo} (hu : s.fen.undo = some u) (others : Level) :
    Acts s (s.undoMark u others) := by
  unfold State.undoMark
  refine (Relation.ReflTransGen.trans ?_ (acts_withRdc_same)).trans (acts_rise _ _ _ _)
  split
  · rename_i w hw
    refine acts_undoStart (fun f was flag h => ?_) rfl
    simp [Fen.undoneFrame, hu, hw, h]
  · exact acts_withFen (.inl rfl)

theorem acts_keepStart (s : State) (others : Level) : Acts s (s.keepStart others) := by
  unfold State.keepStart
  refine (Relation.ReflTransGen.trans ?_ (acts_rise _ _ _ _)).trans (acts_compareCell _ _ _)
  exact acts_withFen (.inl rfl)

theorem acts_sizeAtMark (s : State) (stretched : Bool) : Acts s (s.sizeAtMark stretched) := by
  unfold State.sizeAtMark
  split
  · split
    · exact acts_sizeWindow s _ _
    · exact acts_sizeWindow s _ _
  · split
    · split
      · exact (acts_readOwnHeader s).trans (acts_sizeWindow _ _ _)
      · exact Acts.refl s
    · split
      · exact acts_sizeWindow s _ _
      · split
        · exact acts_sizeWindow s _ _
        · exact acts_syncLoss s

theorem acts_markCell (s : State) (read : MarkRead) : Acts s (s.markCell read) := by
  unfold State.markCell
  dsimp only
  split
  · rename_i u hu
    split
    · exact acts_undoMark hu _
    · exact acts_keepStart s _
  · split
    · exact ((acts_rise s _ _ _).trans (acts_sizeAtMark _ _)).trans (acts_compareCell _ _ _)
    · exact Acts.refl s

theorem acts_stuckInMark (s : State) (others : Level) : Acts s (s.stuckInMark others) :=
  ((acts_holdLow s _).trans (acts_takeStuck _)).trans (acts_rise _ _ _ _)

theorem acts_endCheck (s : State) (h : HeaderFields) (payload : List Byte) (check : BitVec 16) :
    Acts s (s.endCheck h payload check) := by
  unfold State.endCheck
  dsimp only
  generalize (crc16 (s.fen.staging.header ++ lineBytes h.length payload) == check) = good
  split
  · refine Relation.ReflTransGen.trans ?_ (acts_applyDecision _ _ _ _)
    exact acts_toStage (.inr (by rfl))
  · exact acts_toStage (.inr (by rfl))

theorem acts_endOwnBody (s : State) (x : Tx) (payload : List Byte) (check : BitVec 16) :
    Acts s (s.endOwnBody x payload check) :=
  acts_toStage (.inr (by rfl))

theorem acts_driveAnswer (s : State) (d : Decision) : Acts s (s.driveAnswer d) := by
  unfold State.driveAnswer
  refine (Relation.ReflTransGen.trans ?_ (acts_withRdc_same)).trans (acts_fall _ _ _)
  exact acts_withFen (.inr rfl)

theorem acts_endOwnWindow {s : State} {x : Transmission} (slot : s.osc.slot = some x) (a b : Level) :
    Acts s (s.endOwnWindow x a b) := by
  have slot' : s.readOwnPayload.osc.slot = some x := by rw [readOwnPayload_only, slot]
  unfold State.endOwnWindow
  refine (Relation.ReflTransGen.trans ?_ (acts_rise _ _ _ _)).trans (acts_countStreak _ _)
  exact ((acts_readOwnPayload s).trans (acts_settleWindow slot' _ _ _)).trans (acts_withRdc_same)

theorem acts_advanceWindow (s : State) : Acts s s.advanceWindow := by
  unfold State.advanceWindow
  dsimp only
  split
  · refine ((acts_withRdc_same).trans (acts_withFen (.inl ?_))).trans (acts_fall _ _ _)
    cases s.endedEmpty <;> rfl
  · refine ((acts_withRdc_same).trans (acts_withFen (.inl ?_))).trans (acts_fall _ _ _)
    cases s.endedEmpty <;> rfl

/-! ## Resets -/

theorem acts_softReset (s : State) : Acts s s.softReset :=
  (Acts.one (.reset s _ _ _ _ _ _ (.inl rfl))).trans
    (acts_withLif fun h => ⟨h.idle, h.clockLow, h.dataLow, h.cellTimer, h.openCount⟩)

theorem acts_assertReset (s : State) : Acts s s.assertReset := by
  have reset := lif_inRange_atReset s.lif.straps
  have lif : Acts s (s.withLif
      { Lif.atReset s.lif.straps with wclk := s.lif.released.wclk, wdat := s.lif.released.wdat }) :=
    acts_withLif fun _ => ⟨reset.idle, reset.clockLow, reset.dataLow, reset.cellTimer, reset.openCount⟩
  exact (lif.trans (acts_withLpt (x := { s.lpt with txn := s.lpt.txn.afterPinReset, sdo := none }) rfl)).trans
    (Acts.one (.aside _ true s.pending))

theorem acts_releaseReset (s : State) (straps : Straps) : Acts s (s.releaseReset straps) :=
  Acts.one (.reset s _ _ _ _ _ _ (.inr rfl))

end Sys2Proof.Laws
end

section
/-!
SUPPORT. The local port's requests, every command, every step.
-/

namespace Sys2Proof.Laws

open Sys2Proof.Machine

/-! ## Requests of the queue ports -/

theorem takeReady_iff (s : State) : s.takeReady = true ↔ 1 ≤ s.spare ∧ s.outboundOwned < 32 := by
  rw [State.takeReady, Bool.and_eq_true, decide_eq_true_iff, decide_eq_true_iff]
  rfl

theorem acts_takeFrame (s : State) : Acts s s.takeFrame := by
  unfold State.takeFrame
  split
  · rename_i f rest ready head
    exact (Acts.one (.take s f rest head ((takeReady_iff s).mp ready).2)).trans (acts_withLpt rfl)
  · exact acts_withLpt rfl

/-- A record that is not ARRIVED has another place than the inbound queue. -/
theorem place_ne_inbound {r : FrameRecord} (h : ∀ i, r ≠ .arrived i) : r.place ≠ .inboundQueue := fun inbound =>
  have ⟨i, was⟩ := arrived_of_place inbound
  h i was

theorem acts_popInboundFrame (s : State) : Acts s s.popInboundFrame := by
  unfold State.popInboundFrame
  split
  · exact acts_withLpt rfl
  · rename_i f rest head
    dsimp only
    split
    · rename_i r was
      exact Relation.ReflTransGen.trans (Acts.one (.hold s f rest r head was)) (acts_withLpt rfl)
    · rename_i was
      exact Relation.ReflTransGen.trans (Acts.one (.stray s f rest head (place_ne_inbound was))) (acts_withLpt rfl)

theorem acts_forgetUndo (s : State) (f : FrameNo) : Acts s (s.forgetUndo f) := by
  refine acts_withFen ?_
  cases hu : s.fen.undo with
  | none => exact .inl rfl
  | some u =>
    rcases hs : u.start with _ | ⟨_ | _ | ⟨g, q, c⟩ | _⟩
    case some.cancelled =>
      by_cases hg : g = f
      · exact .inl (by simp [Fen.undoneFrame, hs, hg])
      · exact .inr (by simp [Fen.undoneFrame, hs, hg, hu])
    all_goals exact .inr (by simp [Fen.undoneFrame, hs, hu])

theorem acts_popCompletionFrame (s : State) : Acts s s.popCompletionFrame := by
  unfold State.popCompletionFrame
  split
  · exact acts_withLpt rfl
  · rename_i f rest head
    split
    · rename_i d was
      refine Relation.ReflTransGen.trans ?_ (acts_forgetUndo _ f)
      exact Relation.ReflTransGen.trans (Acts.one (.pop s f rest d head was)) (acts_withLpt rfl)
    · exact Acts.refl s

theorem acts_postFilling {s : State} {f : FrameNo} (was : s.frame f = .filling) : Acts s (s.postFilling f) := by
  unfold State.postFilling
  split
  · exact Acts.one (.reject s f _ was (Nat.zero_le _))
  · split
    · exact Acts.one (.reject s f _ was (Nat.zero_le _))
    · have posted := Acts.one (.post s f (s.postedQueued f) was rfl (by simp [State.postedQueued, Config.maxAttempts]))
      cases hc : (s.postedQueued f).cls <;>
        simpa [State.withQueue, State.queueOf, State.setFrame, State.withFpl, State.withOsc, hc] using posted

theorem acts_postByte (s : State) (n : Byte) : Acts s (s.postByte n) := by
  unfold State.postByte
  split
  · exact acts_reportMisuse s _ _
  · split
    · exact acts_postFilling ‹_›
    · exact acts_reportMisuse s _ _

theorem acts_releaseHeld {s : State} {f : FrameNo} {r : InRecord} (was : s.frame f = .held r) :
    Acts s (s.releaseHeld f r) := by
  have freed := Acts.one (.release s f r was)
  unfold State.releaseHeld
  dsimp only
  split
  · exact freed.trans (acts_updPeer_credit)
  · exact freed

theorem acts_releaseByte (s : State) (n : Byte) : Acts s (s.releaseByte n) := by
  unfold State.releaseByte
  split
  · exact acts_reportMisuse s _ _
  · split
    · exact acts_releaseHeld ‹_›
    · exact acts_reportMisuse s _ _

theorem acts_cancelQueued {s : State} {f : FrameNo} {q : Posted} (was : s.frame f = .queued q) :
    Acts s ((s.unqueue f).completeCancelled f q q.attempts) := by
  have settled : Acts s (s.settleCancelled q q.attempts) :=
    acts_settleCancelled (f := f) (by rw [was]; rfl) (.inl rfl)
  rw [settleCancelled_only] at settled
  rw [completeCancelled_of (s := s) (t := s.unqueue f) rfl rfl]
  exact settled.trans (Acts.one (.finish { s with peers := (s.settleCancelled q q.attempts).peers } f q _ was rfl))

theorem acts_cancelByte (s : State) (n : Byte) : Acts s (s.cancelByte n) := by
  unfold State.cancelByte
  split
  · exact acts_reportMisuse s _ _
  · split
    · exact acts_cancelQueued ‹_›
    · rename_i was
      refine acts_setFrame ?_
      rw [was]
      exact ⟨rfl, rfl, rfl⟩
    · exact acts_reportMisuse s _ _

/-! ## Commands -/

theorem acts_withWku {s : State} {w : Wku} (h : s.wku.InRange → w.InRange) : Acts s (s.withWku w) :=
  Acts.one (.wku s w h)

theorem acts_zeroCounters (s : State) : Acts s s.zeroCounters :=
  acts_withWku fun _ n => by simp

theorem acts_enterDoze (s : State) : Acts s s.enterDoze := by
  unfold State.enterDoze
  split
  · exact Acts.refl s
  · exact (acts_zeroCounters s).trans (acts_withWku fun h => h)

theorem acts_leaveDoze (s : State) : Acts s s.leaveDoze := (acts_zeroCounters s).trans (acts_withWku fun h => h)

theorem acts_takeRejoin (s : State) : Acts s s.takeRejoin := by
  unfold State.takeRejoin
  split
  · exact acts_withRdc_same
  · exact acts_enterListening s
  all_goals exact Acts.refl s

theorem acts_commandByte (s : State) (code : Byte) : Acts s (s.commandByte code) := by
  unfold State.commandByte
  split
  · exact acts_enterDoze s
  · split
    · exact acts_leaveDoze s
    · split
      · exact acts_takeRejoin s
      · split
        · exact acts_softReset s
        · exact acts_reportMisuse s _ _

theorem acts_clearEvents (s : State) (v : Byte) : Acts s (s.clearEvents v) :=
  Acts.one (.lpt s _ fun h => ite_zero_le h)

/-- A write to a wake entry leaves its match counter (10 R167). -/
theorem acts_updWake {s : State} {n : Fin 3} {g : WakeEntry → WakeEntry} (h : ∀ e, (g e).counter = e.counter) :
    Acts s (s.updWake n g) := by
  refine acts_withWku fun hs m => ?_
  by_cases hm : m = n
  · subst hm
    simpa [h, State.wakeEntry] using hs m
  · have hv : n.val ≠ m.val := fun e => hm (Fin.ext e.symm)
    simpa [hv, State.wakeEntry] using hs m

/-! ## Transactions -/

theorem acts_beginTxn (s : State) (read : Bool) (a : Addr) : Acts s (s.beginTxn read a) := acts_withLpt rfl

theorem acts_updTxn (s : State) (g : ActiveTxn → ActiveTxn) : Acts s (s.updTxn g) := by
  unfold State.updTxn
  split
  · exact acts_withLpt rfl
  all_goals exact Acts.refl s

theorem acts_refuseByte (s : State) (x : ActiveTxn) (k : MisuseKind) (f : FrameNo) : Acts s (s.refuseByte x k f) := by
  unfold State.refuseByte
  split
  · exact Acts.refl s
  · exact (acts_reportMisuse s _ _).trans (acts_updTxn _ _)

theorem acts_readFrameByte (s : State) (x : ActiveTxn) (a : Nat) : Acts s (s.readFrameByte x a).2 := by
  unfold State.readFrameByte
  split
  case h_3 => exact acts_refuseByte s _ _ _
  all_goals exact Acts.refl s

theorem acts_readStatus (s : State) (x : ActiveTxn) (i : Nat) : Acts s (s.readStatus x i).2 := by
  unfold State.readStatus
  split
  · exact Acts.refl s
  · exact acts_updTxn s _

theorem acts_readPeerView (s : State) (x : ActiveTxn) (p : Pos) (i : Nat) : Acts s (s.readPeerView x p i).2 := by
  unfold State.readPeerView
  split
  · exact Acts.refl s
  · exact acts_updTxn s _

/-- An act taken on the first byte of a transaction only. -/
theorem acts_ite {s t : State} {c : Prop} [Decidable c] (h : Acts s t) : Acts s (if c then t else s) := by
  split
  · exact h
  · exact Acts.refl s

theorem acts_readPort (s : State) (first : Bool) (x : ActiveTxn) (a : Nat) : Acts s (s.readPort first x a).2 := by
  unfold State.readPort
  split
  · exact acts_ite (acts_takeFrame s)
  · split
    · exact acts_ite (acts_popInboundFrame s)
    · split
      · exact acts_ite (acts_popCompletionFrame s)
      · split
        · exact Acts.refl s
        · split
          · exact acts_readStatus s _ _
          · split
            · exact Acts.refl s
            · split
              · exact acts_readPeerView s _ _ _
              · split <;> exact Acts.refl s

theorem acts_takeRead (s : State) (first : Bool) (x : ActiveTxn) : Acts s (s.takeRead first x) := by
  unfold State.takeRead
  refine Relation.ReflTransGen.trans ?_ (acts_withLpt rfl)
  refine Relation.ReflTransGen.trans ?_ (acts_updTxn _ _)
  split
  · exact acts_readFrameByte s _ _
  · exact acts_readPort s _ _ _

theorem acts_writeFrameByte {s : State} {a : Nat} (inside : a < Config.frameMemoryBytes) (x : ActiveTxn) (v : Byte) :
    Acts s (s.writeFrameByte x a v) := by
  unfold State.writeFrameByte
  split
  · exact Acts.one (.byte s a v inside)
  · exact acts_refuseByte s _ _ _

theorem setSettingsByte_counter (e : WakeEntry) (i : Nat) (v : Byte) : (e.setSettingsByte i v).counter = e.counter := by
  unfold WakeEntry.setSettingsByte
  split <;> rfl

theorem setTagByte_counter (e : WakeEntry) (i : Nat) (v : Byte) : (e.setTagByte i v).counter = e.counter := by
  unfold WakeEntry.setTagByte
  split <;> rfl

theorem acts_writePort (s : State) (first : Bool) (a : Nat) (v : Byte) : Acts s (s.writePort first a v) := by
  unfold State.writePort
  split
  · exact acts_ite (acts_postByte s v)
  · split
    · exact acts_ite (acts_releaseByte s v)
    · split
      · exact acts_ite (acts_cancelByte s v)
      · split
        · exact acts_ite (acts_commandByte s v)
        · split
          · exact acts_ite (acts_clearEvents s v)
          · split
            · exact acts_withLpt rfl
            · split
              · exact acts_updWake fun e => setSettingsByte_counter e _ v
              · split
                · exact acts_updWake fun e => setTagByte_counter e _ v
                · exact Acts.refl s

theorem acts_takeWrite (s : State) (first : Bool) (x : ActiveTxn) (v : Byte) : Acts s (s.takeWrite first x v) := by
  unfold State.takeWrite
  refine Relation.ReflTransGen.trans ?_ (acts_updTxn _ _)
  split
  · exact acts_writeFrameByte ‹_› _ _
  · exact acts_writePort s _ _ _

theorem acts_portRead (s : State) (start : Option Addr) : Acts s (s.portRead start) := by
  unfold State.portRead
  split
  · exact Acts.refl s
  · split
    · exact (acts_beginTxn s _ _).trans (acts_takeRead _ _ _)
    · split
      · split
        · exact acts_takeRead s _ _
        · exact Acts.refl s
      all_goals exact Acts.refl s

theorem acts_portWrite (s : State) (start : Option Addr) (v : Byte) : Acts s (s.portWrite start v) := by
  unfold State.portWrite
  split
  · exact Acts.refl s
  · split
    · exact (acts_beginTxn s _ _).trans (acts_takeWrite _ _ _ _)
    · split
      · split
        · exact Acts.refl s
        · exact acts_takeWrite s _ _ _
      all_goals exact Acts.refl s

theorem acts_endTxn (s : State) : Acts s s.endTxn := acts_withLpt rfl

/-! ## Steps -/

theorem acts_of_next {s t u : State} (h : (.next u : Host.Outcome State Fault Refusal) = .next t) (hu : Acts s u) :
    Acts s t := by
  cases h
  exact hu

/-- A line command that is due has its effect, and else none. -/
theorem acts_of_whenDue {s t after : State} {due : Bool} (h : s.whenDue due after = .next t)
    (hdue : due = true → Acts s after) : Acts s t := by
  unfold State.whenDue at h
  refine acts_of_next h ?_
  split
  · rename_i hd
    exact hdue (Bool.and_eq_true_iff.mp hd).2
  · exact Acts.refl s

theorem exec_acts {c : Instr} {s t : State} (h : exec c s = .next t) : Acts s t := by
  cases c with
  | take | popInbound | popCompletion | frameMemoryRead => exact acts_of_next h (acts_portRead s _)
  | post | release | cancel | doze | resume | rejoin | softReset | badCommand | eventClear | registerWrite
  | frameMemoryWrite => exact acts_of_next h (acts_portWrite s _ _)
  | transactionEnd => exact acts_of_next h (acts_endTxn s)
  | resetAssert =>
    refine acts_of_next h ?_
    split
    · exact Acts.refl s
    · exact acts_assertReset s
  | resetRelease straps => exact acts_of_next h (acts_releaseReset s straps)
  | boundary => exact acts_of_whenDue h fun _ => (acts_quietUntil s _).trans (acts_enterObserving _)
  | faultRecovery => exact acts_of_whenDue h fun _ => (acts_quietUntil s _).trans (acts_enterListening _)
  | stuckLine wire => exact acts_of_whenDue h fun _ => (acts_holdLow s wire).trans (acts_takeStuck _)
  | roundStopped =>
    refine acts_of_whenDue h fun _ => ?_
    split
    · exact (acts_quietUntil s _).trans (acts_enterListening _)
    · exact acts_quietUntil s _
  | openRound => exact acts_of_whenDue h fun _ => (acts_quietUntil s _).trans (acts_beginOpen _)
  | openComplete => exact acts_of_whenDue h fun _ => (acts_elapse s _).trans (acts_startRound _ _)
  | openSeen =>
    refine acts_of_whenDue h fun _ => ?_
    split
    · exact (acts_dataFalls s).trans
        (acts_withLif fun h => ⟨h.idle, h.clockLow, h.dataLow, h.cellTimer, h.openCount⟩)
    · exact acts_dataFalls s
  | roundStart => exact acts_of_whenDue h fun _ => acts_startRound s _
  | openAbandoned => exact acts_of_whenDue h fun _ => acts_dataRise s
  | strayClockFall =>
    exact acts_of_whenDue h fun _ =>
      acts_withLif fun h => ⟨Nat.zero_le _, Nat.zero_le _, Nat.zero_le _, h.cellTimer, h.openCount⟩
  | sweepRunOut => exact acts_of_whenDue h fun _ => acts_sweepUp s
  | leadFieldEnd others => exact acts_of_whenDue h fun _ => acts_endLead s others
  | ownPresenceCellLow => exact acts_of_whenDue h fun _ => acts_conflictAtCell s
  | presenceFieldEnd others => exact acts_of_whenDue h fun _ => acts_endPresence s others
  | joinFieldEnd others => exact acts_of_whenDue h fun _ => acts_endJoin s others
  | ownClaimCell others =>
    refine acts_of_whenDue h fun hdue => acts_ownClaim ?_ others
    simp only [Bool.and_eq_true, Option.isNone_iff_eq_none] at hdue
    exact hdue.2
  | claimFieldEnd others => exact acts_of_whenDue h fun _ => acts_endClaim s others
  | windowStart => exact acts_of_whenDue h fun _ => acts_beginOwnWindow s
  | collision cell => exact acts_of_whenDue h fun _ => acts_collide s cell
  | emptySettlement =>
    refine acts_of_whenDue h fun hdue => acts_settleEmpty ?_
    simp only [State.emptyDue, Bool.and_eq_true, beq_iff_eq] at hdue
    exact hdue.1
  | headerEnd bytes => exact acts_of_whenDue h fun _ => acts_endHeader s bytes
  | markCell read =>
    refine acts_of_whenDue h fun _ => ?_
    split
    · exact acts_stuckInMark s _
    · exact acts_markCell s read
  | frameCheckEnd payload check =>
    refine acts_of_whenDue h fun _ => ?_
    split
    · exact acts_endCheck s _ _ _
    · exact acts_endOwnBody s _ _ _
    · exact Acts.refl s
  | answerDrive =>
    refine acts_of_whenDue h fun _ => ?_
    split
    · exact acts_driveAnswer s _
    · exact Acts.refl s
  | outcome a b =>
    refine acts_of_whenDue h fun _ => ?_
    split
    · exact acts_endOwnWindow ‹_› a b
    · exact Acts.refl s
  | carryDrive => exact acts_of_whenDue h fun _ => acts_beginCarry s
  | chainedRoundStart => exact acts_of_whenDue h fun _ => acts_startChained s
  | roundEnd => exact acts_of_whenDue h fun _ => acts_endRound s
  | windowEnd => exact acts_of_whenDue h fun _ => acts_advanceWindow s

/-- A step is a sequence of acts. -/
theorem step_acts {s t : State} (h : step s = .next t) : Acts s t := by
  unfold step at h
  split at h
  · exact acts_of_next h (acts_tick s)
  · rename_i c rest hq
    exact (Acts.one (.aside s s.resetAsserted rest)).trans (exec_acts h)

/-- What every act keeps, every step keeps. -/
theorem step_keeps {P : State → Prop} (hP : ∀ s t, Act s t → P s → P t) {s t : State} (h : step s = .next t) :
    P s → P t := Acts.keep hP (step_acts h)

/-! ## The laws that every step keeps -/

/-- Settles O55: every act keeps frame memory's form and the own entry. -/
theorem memoryAndOwnEntryKept : Obligations.MemoryAndOwnEntryKept := fun _ _ h =>
  ⟨step_keeps (fun _ _ => memoryOk_of_act) h, step_keeps (fun _ _ => ownEntry_of_act) h⟩

/-- Settles O56: every act keeps the places, and with them the post order. -/
theorem framesStayInTheirPlaces : Obligations.FramesStayInTheirPlaces := fun _ _ h =>
  ⟨step_keeps (fun _ _ => placed_of_act) h, step_keeps (fun _ _ => postOrder_of_act) h⟩

/-- Settles O57: every act keeps outbound-owned, the attempts and the counts within their limits. -/
theorem limitsKept : Obligations.LimitsKept := fun _ _ h =>
  ⟨step_keeps (fun _ _ => outboundBounded_of_act) h, step_keeps (fun _ _ => attemptsBounded_of_act) h,
    step_keeps (fun _ _ => countsInRange_of_act) h⟩

end Sys2Proof.Laws
end

section
/-!
SUPPORT. One data byte of a transaction at the local port (09 R150 to R153): the state in which it is taken, what it
leaves of the transaction, and the acting ports one by one.
-/

namespace Sys2Proof.Machine

/-- The Local Port as a data byte of transaction x finds it: SDO shifts 0x00 through the two address bytes. -/
def State.lptOpen (s : State) (start : Option Addr) (x : ActiveTxn) : Lpt :=
  { s.lpt with txn := .active x, sdo := if start.isSome then some 0 else s.lpt.sdo }

end Sys2Proof.Machine

namespace Sys2Proof.Laws

open Sys2Proof.Machine

/-! ## Data bytes -/

theorem txnFor_some (s : State) (read : Bool) (a : Addr) : s.txnFor read (some a) = some (ActiveTxn.begun read a) := rfl

/-- A next byte finds the transaction that is in progress, in its direction. -/
theorem txnFor_none {s : State} {read : Bool} {x : ActiveTxn} (h : s.txnFor read none = some x) :
    s.lpt.txn = .active x ∧ x.read = read := by
  unfold State.txnFor at h
  dsimp only at h
  split at h
  · rename_i y hy
    split at h
    · rename_i hr
      cases h
      exact ⟨hy, hr⟩
    · cases h
  · cases h
  · cases h

/-- A transaction in progress stands open as it is. -/
theorem withLpt_lptOpen_none {s : State} {x : ActiveTxn} (h : s.lpt.txn = .active x) :
    s.withLpt (s.lptOpen none x) = s := by
  simp [State.lptOpen, State.withLpt, ← h]

theorem portRead_eq {s : State} {start : Option Addr} {x : ActiveTxn} (hr : s.resetAsserted = false)
    (hx : s.txnFor true start = some x) :
    s.portRead start = (s.withLpt (s.lptOpen start x)).takeRead start.isSome x := by
  cases start with
  | some a =>
    cases hx
    simp only [State.portRead, hr]
    rfl
  | none =>
    obtain ⟨htxn, hread⟩ := txnFor_none hx
    simp [State.portRead, hr, htxn, hread, withLpt_lptOpen_none htxn]

theorem portWrite_eq {s : State} {start : Option Addr} {x : ActiveTxn} (v : Byte) (hr : s.resetAsserted = false)
    (hx : s.txnFor false start = some x) :
    s.portWrite start v = (s.withLpt (s.lptOpen start x)).takeWrite start.isSome x v := by
  cases start with
  | some a =>
    cases hx
    simp only [State.portWrite, hr]
    rfl
  | none =>
    obtain ⟨htxn, hread⟩ := txnFor_none hx
    simp [State.portWrite, hr, htxn, hread, withLpt_lptOpen_none htxn]

theorem updTxn_active {s : State} {y : ActiveTxn} (g : ActiveTxn → ActiveTxn) (h : s.lpt.txn = .active y) :
    s.updTxn g = s.withLpt { s.lpt with txn := .active (g y) } := by
  simp [State.updTxn, h]

/-- A read byte stands on SDO, and the current address rises. -/
theorem takeRead_eq {s u : State} {first : Bool} {x y : ActiveTxn} {b : Byte}
    (hr : (if x.addr.toNat < Config.frameMemoryBytes then s.readFrameByte x x.addr.toNat
      else s.readPort first x x.addr.toNat) = (b, u)) (hy : u.lpt.txn = .active y) :
    s.takeRead first x =
      u.withLpt { u.lpt with txn := .active { y with addr := y.addr + 1 }, sdo := some b } := by
  simp only [State.takeRead, hr, updTxn_active _ hy]
  rfl

/-- After a written byte the current address rises. -/
theorem takeWrite_eq {s u : State} {first : Bool} {x y : ActiveTxn} {v : Byte}
    (hr : (if x.addr.toNat < Config.frameMemoryBytes then s.writeFrameByte x x.addr.toNat v
      else s.writePort first x.addr.toNat v) = u) (hy : u.lpt.txn = .active y) :
    s.takeWrite first x v = u.withLpt { u.lpt with txn := .active { y with addr := y.addr + 1 } } := by
  simp only [State.takeWrite, hr, updTxn_active _ hy]

/-! ## Misuses -/

theorem reportMisuse_eq (s : State) (k : MisuseKind) (f : Option FrameNo) :
    s.reportMisuse k f = s.withLpt (s.lpt.misused k f) := by
  unfold State.reportMisuse
  split
  · rename_i h
    simp [Lpt.misused, h]
  · rename_i m h
    simp [Lpt.misused, h, Config.furtherMax]

/-- A refused byte is a misuse once in its transaction. -/
theorem refuseByte_eq {s : State} {x : ActiveTxn} (h : s.lpt.txn = .active x) (k : MisuseKind) (f : FrameNo) :
    s.refuseByte x k f = s.withLpt { (if x.refusedReported then s.lpt else s.lpt.misused k (some f)) with
      txn := .active { x with refusedReported := true } } := by
  unfold State.refuseByte
  split
  · rename_i hx
    have : ({ x with refusedReported := true } : ActiveTxn) = x := by rw [← hx]
    rw [this, ← h]
    rfl
  · rw [reportMisuse_eq]
    exact updTxn_active (s := s.withLpt (s.lpt.misused k (some f))) _ h

/-! ## Acting ports -/

/-- The station as the first data byte of a transaction at `a` finds it. -/
abbrev begun (s : State) (read : Bool) (a : Addr) : State :=
  s.withLpt (s.lptOpen (some a) (ActiveTxn.begun read a))

/-- A read transaction that begins outside frame memory. -/
theorem portRead_begun {s u : State} {a : Addr} {n : Nat} {b : Byte} (hr : s.resetAsserted = false) (hn : a.toNat = n)
    (hport : 0xC00 ≤ n) (hb : (begun s true a).readPort true (ActiveTxn.begun true a) n = (b, u))
    (hx : u.lpt.txn = .active (ActiveTxn.begun true a)) :
    s.portRead (some a) =
      u.withLpt { u.lpt with txn := .active (ActiveTxn.begun true (a + 1)), sdo := some b } := by
  subst hn
  rw [portRead_eq hr (txnFor_some s true a)]
  exact takeRead_eq ((if_neg (Nat.not_lt.mpr hport)).trans hb) hx

/-- A write transaction that begins outside frame memory. -/
theorem portWrite_begun {s u : State} {a : Addr} {n : Nat} {v : Byte} (hr : s.resetAsserted = false) (hn : a.toNat = n)
    (hport : 0xC00 ≤ n) (hu : (begun s false a).writePort true n v = u)
    (hx : u.lpt.txn = .active (ActiveTxn.begun false a)) :
    s.portWrite (some a) v = u.withLpt { u.lpt with txn := .active (ActiveTxn.begun false (a + 1)) } := by
  subst hn
  rw [portWrite_eq v hr (txnFor_some s false a)]
  exact takeWrite_eq ((if_neg (Nat.not_lt.mpr hport)).trans hu) hx

theorem portRead_take {s u : State} (hr : s.resetAsserted = false) (hu : (begun s true 0xC01).takeFrame = u)
    (hx : u.lpt.txn = .active (ActiveTxn.begun true 0xC01)) : s.portRead (some 0xC01) =
      u.withLpt { u.lpt with txn := .active (ActiveTxn.begun true (0xC01 + 1)), sdo := some u.lpt.takeLatch } := by
  refine portRead_begun (n := 0xC01) hr rfl (by decide) ?_ hx
  simp [State.readPort, ← hu]

theorem portRead_popInbound {s u : State} (hr : s.resetAsserted = false)
    (hu : (begun s true 0xC03).popInboundFrame = u) (hx : u.lpt.txn = .active (ActiveTxn.begun true 0xC03)) :
    s.portRead (some 0xC03) =
      u.withLpt { u.lpt with txn := .active (ActiveTxn.begun true (0xC03 + 1)), sdo := some u.lpt.inboundLatch } := by
  refine portRead_begun (n := 0xC03) hr rfl (by decide) ?_ hx
  simp [State.readPort, ← hu]

theorem portRead_popCompletion {s u : State} (hr : s.resetAsserted = false)
    (hu : (begun s true 0xC05).popCompletionFrame = u) (hx : u.lpt.txn = .active (ActiveTxn.begun true 0xC05)) :
    s.portRead (some 0xC05) =
      u.withLpt { u.lpt with
        txn := .active (ActiveTxn.begun true (0xC05 + 1)), sdo := some u.lpt.completionLatch.frame } := by
  refine portRead_begun (n := 0xC05) hr rfl (by decide) ?_ hx
  simp [State.readPort, CompletionLatch.byte, ← hu]

theorem portWrite_post {s u : State} {v : Byte} (hr : s.resetAsserted = false)
    (hu : (begun s false 0xC10).postByte v = u) (hx : u.lpt.txn = .active (ActiveTxn.begun false 0xC10)) :
    s.portWrite (some 0xC10) v = u.withLpt { u.lpt with txn := .active (ActiveTxn.begun false (0xC10 + 1)) } := by
  refine portWrite_begun (n := 0xC10) hr rfl (by decide) ?_ hx
  simp [State.writePort, ← hu]

theorem portWrite_release {s u : State} {v : Byte} (hr : s.resetAsserted = false)
    (hu : (begun s false 0xC11).releaseByte v = u) (hx : u.lpt.txn = .active (ActiveTxn.begun false 0xC11)) :
    s.portWrite (some 0xC11) v = u.withLpt { u.lpt with txn := .active (ActiveTxn.begun false (0xC11 + 1)) } := by
  refine portWrite_begun (n := 0xC11) hr rfl (by decide) ?_ hx
  simp [State.writePort, ← hu]

theorem portWrite_cancel {s u : State} {v : Byte} (hr : s.resetAsserted = false)
    (hu : (begun s false 0xC12).cancelByte v = u) (hx : u.lpt.txn = .active (ActiveTxn.begun false 0xC12)) :
    s.portWrite (some 0xC12) v = u.withLpt { u.lpt with txn := .active (ActiveTxn.begun false (0xC12 + 1)) } := by
  refine portWrite_begun (n := 0xC12) hr rfl (by decide) ?_ hx
  simp [State.writePort, ← hu]

/-- The byte that a frame number is written as names the frame. -/
theorem frameArg_ofNat (f : FrameNo) : frameArg (BitVec.ofNat 8 f.val) = some f := by
  have hf := f.isLt
  have hn : (BitVec.ofNat 8 f.val).toNat = f.val := by
    rw [BitVec.toNat_ofNat]
    omega
  simp [frameArg, hn, hf]

/-! ### TAKE -/

theorem takeFrame_ready {s : State} {f : FrameNo} {rest : List FrameNo} (ready : s.takeReady = true)
    (head : s.fpl.freeList = f :: rest) : s.takeFrame = { s with
      fpl := { s.fpl with frames := s.fpl.frames.set f .filling, freeList := rest }
      lpt := { s.lpt with takeLatch := frameByteOf f } } := by
  unfold State.takeFrame
  rw [ready, head]
  rfl

theorem takeFrame_not_ready {s : State} (ready : s.takeReady = false) :
    s.takeFrame = s.withLpt { s.lpt with takeLatch := Config.noneMarker } := by
  unfold State.takeFrame
  rw [ready]

/-- A spare frame is on the free list. -/
theorem freeList_of_takeReady {s : State} (ready : s.takeReady = true) : ∃ f rest, s.fpl.freeList = f :: rest := by
  have hspare := ((takeReady_iff s).mp ready).1
  cases h : s.fpl.freeList with
  | nil => simp [State.spare, State.freeCount, h] at hspare
  | cons f rest => exact ⟨f, rest, rfl⟩

/-- Settles O7: the test of TAKE, and both of its outcomes. -/
theorem takeByItsTest : Obligations.TakeByItsTest := by
  intro s hr
  refine ⟨takeReady_iff s, fun ready => ?_, fun ready => congrArg Host.Outcome.next ?_⟩
  · obtain ⟨f, rest, head⟩ := freeList_of_takeReady ready
    refine ⟨f, rest, head, congrArg Host.Outcome.next ?_⟩
    have taken := takeFrame_ready (s := begun s true 0xC01) ready head
    rw [portRead_take hr taken rfl]
    rfl
  · have marked := takeFrame_not_ready (s := begun s true 0xC01) ready
    rw [portRead_take hr marked rfl]
    rfl

/-! ### POP_INBOUND -/

theorem popInboundFrame_arrived {s : State} {f : FrameNo} {rest : List FrameNo} {r : InRecord}
    (head : s.ibu.inbound = f :: rest) (was : s.frame f = .arrived r) : s.popInboundFrame = { s with
      fpl := { s.fpl with frames := s.fpl.frames.set f (.held r) }
      ibu := { s.ibu with inbound := rest }
      lpt := { s.lpt with inboundLatch := frameByteOf f } } := by
  unfold State.popInboundFrame
  simp only [head, was]
  rfl

theorem popInboundFrame_empty {s : State} (empty : s.ibu.inbound = []) :
    s.popInboundFrame = s.withLpt { s.lpt with inboundLatch := Config.noneMarker } := by
  unfold State.popInboundFrame
  rw [empty]

/-- Settles O8: POP_INBOUND with a frame waiting, and with none. -/
theorem popInboundMovesTheHead : Obligations.PopInboundMovesTheHead := by
  intro s hr
  refine ⟨fun f rest r head was => congrArg Host.Outcome.next ?_, fun empty => congrArg Host.Outcome.next ?_⟩
  · have popped := popInboundFrame_arrived (s := begun s true 0xC03) head was
    rw [portRead_popInbound hr popped rfl]
    rfl
  · have marked := popInboundFrame_empty (s := begun s true 0xC03) empty
    rw [portRead_popInbound hr marked rfl]
    rfl

/-! ### POP_COMPLETION -/

theorem popCompletionFrame_done {s : State} {f : FrameNo} {rest : List FrameNo} {d : DoneRecord}
    (head : s.osc.completion = f :: rest) (was : s.frame f = .done d) : s.popCompletionFrame = { s with
      fpl := { s.fpl with frames := s.fpl.frames.set f .free, freeList := s.fpl.freeList ++ [f] }
      osc := { s.osc with completion := rest }
      fen := (s.forgetUndo f).fen
      lpt := { s.lpt with completionLatch := completionRecord f d } } := by
  unfold State.popCompletionFrame
  simp only [head, was]
  rfl

theorem popCompletionFrame_empty {s : State} (empty : s.osc.completion = []) :
    s.popCompletionFrame = s.withLpt { s.lpt with completionLatch := CompletionLatch.atReset } := by
  unfold State.popCompletionFrame
  rw [empty]

/-- Settles O9: POP_COMPLETION with a record waiting, and with none. -/
theorem popCompletionLatchesTheRecord : Obligations.PopCompletionLatchesTheRecord := by
  intro s hr
  refine ⟨fun f rest d head was => congrArg Host.Outcome.next ?_, fun empty => congrArg Host.Outcome.next ?_⟩
  · have popped := popCompletionFrame_done (s := begun s true 0xC05) head was
    rw [portRead_popCompletion hr popped rfl,
      BitVec.setWidth_ushiftRight_eq_extractLsb,
      BitVec.setWidth_eq_extractLsb' (by decide)]
    rfl
  · have marked := popCompletionFrame_empty (s := begun s true 0xC05) empty
    rw [portRead_popCompletion hr marked rfl]
    rfl

end Sys2Proof.Laws
end

section
/-!
SUPPORT. POST, RELEASE and CANCEL (01 R10, R12, R13, R17).
-/

namespace Sys2Proof.Laws

open Sys2Proof.Machine

/-! ## POST -/

/-- The checks of form of an outbound descriptor, one by one (02 R21, 11 R172). -/
theorem malformed_eq_false_iff (s : State) (f : FrameNo) : s.malformed f = false ↔
    (s.frameByte f 2).toNat ≤ 56 ∧ s.frameByte f 1 &&& 0x3F = 0 ∧ s.frameByte f 5 = 0 ∧ s.frameByte f 6 = 0 ∧
    s.frameByte f 7 = 0 ∧
    ((s.frameByte f 1).getLsbD 7 = true ∨
      (s.frameByte f 0).toNat ≤ 15 ∧ (s.frameByte f 0).toNat ≠ s.own.val) := by
  have hlength : decide (Config.maxLength < (s.frameByte f 2).toNat) = false ↔ (s.frameByte f 2).toNat ≤ 56 := by
    rw [decide_eq_false_iff_not, Nat.not_lt]
    rfl
  rw [State.malformed, Bool.or_eq_false_iff, Bool.or_eq_false_iff, hlength]
  cases (s.frameByte f 1).getLsbD 7 <;> simp [descriptorReservedOk, and_assoc]

theorem descriptorPeer_eq (s : State) (f : FrameNo) : s.descriptorPeer f =
    if !(s.frameByte f 1).getLsbD 7 && decide ((s.frameByte f 0).toNat < 16) then
      some (Fin.ofNat 16 (s.frameByte f 0).toNat) else none := by
  unfold State.descriptorPeer
  cases (s.frameByte f 1).getLsbD 7
  · by_cases h : (s.frameByte f 0).toNat < 16
    · simp [h, Fin.ofNat, Nat.mod_eq_of_lt h]
    · simp [h]
  · simp

theorem postAbsent_iff (s : State) (f : FrameNo) : s.postAbsent f = true ↔
    s.rdc.participation = .member ∧ ∃ p, s.descriptorPeer f = some p ∧ (s.peer p).present = false := by
  unfold State.postAbsent State.isMember
  cases s.descriptorPeer f <;> simp

theorem postByte_filling {s : State} {f : FrameNo} (was : s.frame f = .filling) :
    s.postByte (BitVec.ofNat 8 f.val) = s.postFilling f := by
  unfold State.postByte
  simp only [frameArg_ofNat, was]

theorem postFilling_malformed {s : State} {f : FrameNo} (h : s.malformed f = true) :
    s.postFilling f = s.complete f (s.postedDone f .malformed) := if_pos h

theorem postFilling_absent {s : State} {f : FrameNo} (h : s.malformed f = false) (habsent : s.postAbsent f = true) :
    s.postFilling f = s.complete f (s.postedDone f .peerAbsent) := by
  rw [State.postFilling, h, habsent]
  rfl

/-- A frame that post queues joins the tail of the queue of its class. -/
theorem postFilling_queued {s : State} {f : FrameNo} (h : s.malformed f = false) (habsent : s.postAbsent f = false) :
    s.postFilling f = { s with
      fpl := { s.fpl with frames := s.fpl.frames.set f (.queued (s.postedQueued f)) }
      osc := { s.osc with
        urgent := if (s.postedQueued f).cls = .urgent then s.osc.urgent ++ [f] else s.osc.urgent
        routine := if (s.postedQueued f).cls = .routine then s.osc.routine ++ [f] else s.osc.routine
        nextPost := s.osc.nextPost + 1 } } := by
  rw [State.postFilling, h, habsent]
  cases hc : (s.postedQueued f).cls <;>
    simp [hc, State.withQueue, State.queueOf, State.setFrame, State.withFpl, State.withOsc]

/-- Settles O10: the three judgements of POST. -/
theorem postByTheDescriptor : Obligations.PostByTheDescriptor := by
  intro s f hr was b notice cls tag peer wellFormed absent done
  have hbyte := postByte_filling (s := begun s false 0xC10) was
  have hform : s.malformed f = false ↔ wellFormed := malformed_eq_false_iff s f
  have hpeer : s.descriptorPeer f = peer := descriptorPeer_eq s f
  have habsent : s.postAbsent f = true ↔ absent := by
    rw [postAbsent_iff, hpeer]
  have hdone : ∀ o, s.postedDone f o =
      { cls := cls, notice := notice, peer := peer, tag := tag, attempts := 0, outcome := o } := fun o => by
    rw [State.postedDone, hpeer]
    rfl
  have hqueued : s.postedQueued f =
      { cls := cls, peer := peer, length := (b 2).toNat, tag := tag, attempts := 0, openSeq := none
        postNo := s.osc.nextPost } := by
    rw [State.postedQueued, hpeer]
    rfl
  refine ⟨fun hw => congrArg Host.Outcome.next ?_, fun hw ha => congrArg Host.Outcome.next ?_,
    fun hw ha => congrArg Host.Outcome.next ?_⟩
  · have hm : s.malformed f = true := by simpa using mt hform.mp hw
    have posted := hbyte.trans (postFilling_malformed (s := begun s false 0xC10) hm)
    rw [portWrite_post hr posted rfl, ← hdone]
    rfl
  · have posted := hbyte.trans (postFilling_absent (s := begun s false 0xC10) (hform.mpr hw) (habsent.mpr ha))
    rw [portWrite_post hr posted rfl, ← hdone]
    rfl
  · have hp : s.postAbsent f = false := by simpa using mt habsent.mp ha
    have posted := hbyte.trans (postFilling_queued (s := begun s false 0xC10) (hform.mpr hw) hp)
    rw [portWrite_post hr posted rfl, ← hqueued]
    have hcls : (s.postedQueued f).cls = cls := by rw [hqueued]
    rw [← hcls]
    rfl

/-! ## RELEASE -/

theorem releaseByte_held {s : State} {f : FrameNo} {r : InRecord} (was : s.frame f = .held r) :
    s.releaseByte (BitVec.ofNat 8 f.val) = s.releaseHeld f r := by
  unfold State.releaseByte
  simp only [frameArg_ofNat, was]

/-- An entry of a peer is set. -/
theorem updPeer_of_ne {s : State} {p : Pos} (g : PeerEntry → PeerEntry) (h : p ≠ s.own) :
    s.updPeer p g = { s with peers := s.peers.set p (g (s.peer p)) } := if_neg h

/-- What a released frame returns to the entries: a credit to owed of its source. -/
theorem releaseHeld_eq {s : State} {f : FrameNo} {r : InRecord}
    (hown : ∀ p, r.creditBearing = true → r.peer = some p → p ≠ s.own) : s.releaseHeld f r = { s with
      fpl := { s.fpl with frames := s.fpl.frames.set f .free, freeList := s.fpl.freeList ++ [f] }
      peers := match r.creditBearing, r.peer with
        | true, some p => s.peers.set p { s.peer p with owed := (s.peer p).owed + 1 }
        | _, _ => s.peers } := by
  unfold State.releaseHeld
  cases hc : r.creditBearing with
  | false => rfl
  | true =>
    cases hp : r.peer with
    | none => rfl
    | some p => exact updPeer_of_ne _ (hown p hc hp)

/-- Settles O11: RELEASE of a HELD frame. -/
theorem releaseFreesAHeldFrame : Obligations.ReleaseFreesAHeldFrame := by
  intro s f r hr was hown
  have released := (releaseByte_held (s := begun s false 0xC11) was).trans (releaseHeld_eq hown)
  refine congrArg Host.Outcome.next ?_
  rw [portWrite_release hr released rfl]
  rfl

/-! ## CANCEL -/

theorem cancelByte_queued {s : State} {f : FrameNo} {q : Posted} (was : s.frame f = .queued q) :
    s.cancelByte (BitVec.ofNat 8 f.val) = (s.unqueue f).completeCancelled f q q.attempts := by
  unfold State.cancelByte
  simp only [frameArg_ofNat, was]

theorem cancelByte_sending {s : State} {f : FrameNo} {q : Posted} {c : Bool} (was : s.frame f = .sending q c) :
    s.cancelByte (BitVec.ofNat 8 f.val) = s.setFrame f (.sending q true) := by
  unfold State.cancelByte
  simp only [frameArg_ofNat, was]

/-- The entries after the settlement of a cancelled frame to a peer (02 R41). -/
theorem peers_settleCancelled {s : State} {q : Posted} (n : Nat) (hown : ∀ p, q.peer = some p → p ≠ s.own) :
    (s.settleCancelled q n).peers = s.peersAfterCancel q n := by
  unfold State.settleCancelled State.peersAfterCancel
  cases hp : q.peer with
  | none => rfl
  | some p =>
    cases q.openSeq with
    | none => rfl
    | some o =>
      dsimp only
      split
      · rw [updPeer_of_ne _ (hown p hp)]
      · rw [updPeer_of_ne _ (hown p hp)]
        rfl

/-- Settles O12: CANCEL of a QUEUED and of a SENDING frame. -/
theorem cancelByFrameState : Obligations.CancelByFrameState := by
  intro s f hr
  refine ⟨fun q was hown => congrArg Host.Outcome.next ?_, fun q c was => congrArg Host.Outcome.next ?_⟩
  · have cancelled := (cancelByte_queued (s := begun s false 0xC12) was).trans
      (completeCancelled_of (s := s) (t := (begun s false 0xC12).unqueue f) rfl rfl f q q.attempts)
    rw [peers_settleCancelled q.attempts hown] at cancelled
    rw [portWrite_cancel hr cancelled rfl]
    rfl
  · rw [portWrite_cancel hr (cancelByte_sending (s := begun s false 0xC12) was) rfl]
    rfl

end Sys2Proof.Laws
end

section
/-!
SUPPORT. Data bytes of frame memory, by the state of the frame that holds their address (01 R19).
-/

namespace Sys2Proof.Laws

open Sys2Proof.Machine

/-- The frame that holds byte i of frame f. -/
theorem frameAt_eq {f : FrameNo} {a i : Nat} (hi : i < 64) (ha : a = 64 * f.val + i) : frameAt a = f := by
  have hf := f.isLt
  refine Fin.ext ?_
  simp only [frameAt, Config.frameBytes, Fin.ofNat]
  omega

/-- A byte of a frame is a byte of frame memory. -/
theorem addr_lt_of_frame {f : FrameNo} {a i : Nat} (hi : i < 64) (ha : a = 64 * f.val + i) :
    a < Config.frameMemoryBytes := by
  have hf := f.isLt
  simp only [Config.frameMemoryBytes]
  omega

/-! ## Reads -/

theorem readFrameByte_owned {s : State} (x : ActiveTxn) {a : Nat}
    (h : s.frame (frameAt a) = .filling ∨ ∃ r, s.frame (frameAt a) = .held r) :
    s.readFrameByte x a = (s.memByte a, s) := by
  unfold State.readFrameByte
  rcases h with h | ⟨r, h⟩ <;> rw [h]

theorem readFrameByte_refused {s : State} (x : ActiveTxn) {a : Nat} (hfilling : s.frame (frameAt a) ≠ .filling)
    (hheld : ∀ r, s.frame (frameAt a) ≠ .held r) :
    s.readFrameByte x a = (0, s.refuseByte x .readNotOwned (frameAt a)) := by
  unfold State.readFrameByte
  split
  · exact absurd ‹_› hfilling
  · exact absurd ‹_› (hheld _)
  · rfl

/-- Settles O18: a read byte of frame memory, of an owned frame and of any other. -/
theorem frameMemoryReadByFrameState : Obligations.FrameMemoryReadByFrameState := by
  intro s start x f i hr hx hi ha
  have hlt := addr_lt_of_frame hi ha
  obtain rfl := frameAt_eq hi ha
  refine ⟨fun owned => congrArg Host.Outcome.next ?_, fun hfilling hheld => congrArg Host.Outcome.next ?_⟩
  · have read := readFrameByte_owned (s := s.withLpt (s.lptOpen start x)) x owned
    rw [portRead_eq hr hx, takeRead_eq ((if_pos hlt).trans read) rfl]
    rfl
  · have refused := refuseByte_eq (s := s.withLpt (s.lptOpen start x)) (x := x) rfl .readNotOwned
      (frameAt x.addr.toNat)
    have read := readFrameByte_refused (s := s.withLpt (s.lptOpen start x)) x hfilling hheld
    rw [refused] at read
    rw [portRead_eq hr hx, takeRead_eq ((if_pos hlt).trans read) rfl]
    cases x.refusedReported <;> rfl

/-! ## Writes -/

theorem writeFrameByte_filling {s : State} (x : ActiveTxn) {a : Nat} (v : Byte)
    (h : s.frame (frameAt a) = .filling) : s.writeFrameByte x a v = s.writeMem a v := by
  unfold State.writeFrameByte
  rw [h]

theorem writeFrameByte_refused {s : State} (x : ActiveTxn) {a : Nat} (v : Byte)
    (h : s.frame (frameAt a) ≠ .filling) :
    s.writeFrameByte x a v = s.refuseByte x .writeNotFilling (frameAt a) := by
  unfold State.writeFrameByte
  split
  · exact absurd ‹_› h
  · rfl

/-- A next byte at an acting port, or where nothing is stored, does nothing (09 R153). -/
theorem writePort_nothing {s : State} {a : Addr} (v : Byte) (h : isStoredRegister a = false) :
    s.writePort false a.toNat v = s := by
  simp only [isStoredRegister, Bool.or_eq_false_iff, beq_eq_false_iff_ne, Bool.and_eq_false_iff,
    decide_eq_false_iff_not] at h
  obtain ⟨⟨henable, hwake⟩, htag⟩ := h
  have hne : a.toNat ≠ 0xC19 := fun e => henable (BitVec.eq_of_toNat_eq e)
  have hwake' : ¬ (0xC30 ≤ a.toNat ∧ a.toNat ≤ 0xC35) := fun h => hwake.elim (· h.1) (· h.2)
  have htag' : ¬ (0xC80 ≤ a.toNat ∧ a.toNat ≤ 0xC8B) := fun h => htag.elim (· h.1) (· h.2)
  simp [State.writePort, hne, hwake', htag']

/-- Settles O20: a written byte of frame memory, and of the addresses past it. -/
theorem frameMemoryWriteByFrameState : Obligations.FrameMemoryWriteByFrameState := by
  refine ⟨?_, ?_, fun s start v => rfl⟩
  · intro s start v x f i hr hx hi ha
    have hlt := addr_lt_of_frame hi ha
    obtain rfl := frameAt_eq hi ha
    refine ⟨fun filling => ?_, fun hfilling => congrArg Host.Outcome.next ?_⟩
    · have stored := writeFrameByte_filling (s := s.withLpt (s.lptOpen start x)) x v filling
      refine ⟨_, congrArg Host.Outcome.next ((portWrite_eq v hr hx).trans
        (takeWrite_eq ((if_pos hlt).trans stored) rfl)), ?_, ?_, rfl⟩
      · exact (memByte_writeMem s _ _ v).trans (if_pos rfl)
      · exact fun a hne => (memByte_writeMem s _ _ v).trans (if_neg hne)
    · have refused := refuseByte_eq (s := s.withLpt (s.lptOpen start x)) (x := x) rfl .writeNotFilling
        (frameAt x.addr.toNat)
      have written := writeFrameByte_refused (s := s.withLpt (s.lptOpen start x)) x v hfilling
      rw [refused] at written
      rw [portWrite_eq v hr hx, takeWrite_eq ((if_pos hlt).trans written) rfl]
      cases x.refusedReported <;> rfl
  · intro s v x hr hx hport hreg
    have nothing := writePort_nothing (s := s.withLpt (s.lptOpen none x)) v hreg
    refine congrArg Host.Outcome.next ((portWrite_eq v hr hx).trans ?_)
    exact (takeWrite_eq ((if_neg (Nat.not_lt.mpr hport)).trans nothing) rfl).trans rfl

end Sys2Proof.Laws
end

section
/-!
SUPPORT. The pool counts over the local requests (01 Table 1-4).
-/

namespace Sys2Proof.Laws

open Sys2Proof.Machine

/-! ## The reserve -/

theorem reserve_of_peers {s t : State} (h : ∀ p, (t.peer p).granted = (s.peer p).granted ∧
    (t.peer p).pending = (s.peer p).pending) : t.reserve = s.reserve := by
  have : (fun p => (t.peer p).granted + (t.peer p).pending) = fun p => (s.peer p).granted + (s.peer p).pending :=
    funext fun p => by rw [(h p).1, (h p).2]
  simp only [State.reserve, this]

theorem reserve_of_same {s t : State} (h : t.peers = s.peers) : t.reserve = s.reserve :=
  reserve_of_peers fun p => by simp only [State.peer, h, and_self]

/-- An update of an entry that keeps granted and pending. -/
theorem reserve_updPeer (s : State) (p : Pos) {g : PeerEntry → PeerEntry}
    (hg : ∀ e, (g e).granted = e.granted ∧ (g e).pending = e.pending) : (s.updPeer p g).reserve = s.reserve := by
  refine reserve_of_peers fun r => ?_
  rw [State.updPeer, peer_setPeer]
  split
  · exact ⟨rfl, rfl⟩
  · split
    · subst r
      exact hg _
    · exact ⟨rfl, rfl⟩

theorem reserve_settleCancelled (s : State) (q : Posted) (n : Nat) : (s.settleCancelled q n).reserve = s.reserve := by
  unfold State.settleCancelled
  split
  · split
    · exact reserve_updPeer s _ fun e => ⟨rfl, rfl⟩
    · exact reserve_updPeer s _ fun e => ⟨rfl, rfl⟩
  · rfl

/-! ## Outbound-owned -/

theorem isOutbound_of_freeList {r : FrameRecord} (h : r.place = .freeList) : r.isOutbound = false :=
  isOutbound_of_place (r' := .free) h

/-- One record is set, outbound or not as it was. -/
theorem outboundOwned_of_set_same {s t : State} {f : FrameNo} {r : FrameRecord}
    (hf : t.fpl.frames = s.fpl.frames.set f r) (hr : r.isOutbound = (s.frame f).isOutbound) :
    t.outboundOwned = s.outboundOwned := by
  have := outboundOwned_of_set hf
  rw [hr] at this
  omega

/-! ## The three counts -/

/-- The counts of the pool are those of another state: free count, reserve and outbound-owned. -/
structure SameCounts (s t : State) : Prop where
  free : t.freeCount = s.freeCount
  reserve : t.reserve = s.reserve
  owned : t.outboundOwned = s.outboundOwned

/-- Whatever else changes, a state with the same records, free list and entries has the same counts. -/
theorem sameCounts_of_same {s t : State} (hf : t.fpl = s.fpl) (hp : t.peers = s.peers) : SameCounts s t :=
  ⟨by rw [State.freeCount, hf]; rfl, reserve_of_same hp, by simp only [State.outboundOwned, State.frame, hf]⟩

/-- A FILLING frame that is posted stays outbound. -/
theorem postFilling_counts {s : State} {f : FrameNo} (was : s.frame f = .filling) :
    SameCounts s (s.postFilling f) ∧ (s.postFilling f).lpt = s.lpt := by
  have stays : ∀ (t : State) (r : FrameRecord), r.isOutbound = true → t.fpl.frames = s.fpl.frames.set f r →
      t.fpl.freeList = s.fpl.freeList → t.peers = s.peers → SameCounts s t := fun t r hr hf hl hp =>
    ⟨congrArg List.length hl, reserve_of_same hp, outboundOwned_of_set_same hf (by rw [hr, was]; rfl)⟩
  cases hm : s.malformed f with
  | true =>
    rw [postFilling_malformed hm]
    exact ⟨stays _ _ rfl rfl rfl rfl, rfl⟩
  | false =>
    cases ha : s.postAbsent f with
    | true =>
      rw [postFilling_absent hm ha]
      exact ⟨stays _ _ rfl rfl rfl rfl, rfl⟩
    | false =>
      rw [postFilling_queued hm ha]
      exact ⟨stays _ (.queued (s.postedQueued f)) rfl rfl rfl rfl, rfl⟩

/-- A cancelled frame stays outbound, and a refused request moves nothing. -/
theorem cancelByte_counts (s : State) (n : Byte) :
    SameCounts s (s.cancelByte n) ∧ (s.cancelByte n).lpt.txn = s.lpt.txn := by
  have misused : ∀ k f, SameCounts s (s.reportMisuse k f) ∧ (s.reportMisuse k f).lpt.txn = s.lpt.txn := by
    intro k f
    rw [reportMisuse_eq]
    exact ⟨sameCounts_of_same rfl rfl, rfl⟩
  unfold State.cancelByte
  split
  · exact misused _ _
  · rename_i f _
    split
    · rename_i q was
      rw [completeCancelled_of (s := s) (t := s.unqueue f) rfl rfl]
      exact ⟨⟨rfl,
        (reserve_of_same (s := s.settleCancelled q q.attempts) rfl).trans (reserve_settleCancelled s q q.attempts),
        outboundOwned_of_set_same (f := f) rfl (by rw [was]; rfl)⟩, rfl⟩
    · rename_i q c was
      exact ⟨⟨rfl, reserve_of_same rfl, outboundOwned_of_set_same (f := f) rfl (by rw [was]; rfl)⟩, rfl⟩
    · exact misused _ _

/-- A released frame goes to the free list, and its credit to owed. -/
theorem releaseHeld_counts {s : State} {f : FrameNo} {r : InRecord} (was : s.frame f = .held r) :
    (s.releaseHeld f r).freeCount = s.freeCount + 1 ∧ (s.releaseHeld f r).reserve = s.reserve ∧
    (s.releaseHeld f r).outboundOwned = s.outboundOwned ∧ (s.releaseHeld f r).lpt = s.lpt := by
  have hfree : (s.fpl.freeList ++ [f]).length = s.fpl.freeList.length + 1 := by simp
  have howned : ∀ t : State, t.fpl.frames = s.fpl.frames.set f .free → t.outboundOwned = s.outboundOwned :=
    fun t ht => outboundOwned_of_set_same ht (by rw [was]; rfl)
  unfold State.releaseHeld
  dsimp only
  split
  · refine ⟨?_, (reserve_updPeer _ _ ?_).trans (reserve_of_same rfl), howned _ ?_, ?_⟩
    · rw [updPeer_only]
      exact hfree
    · exact fun e => ⟨rfl, rfl⟩
    · rw [updPeer_only]
      rfl
    · rw [updPeer_only]
      rfl
  · exact ⟨hfree, reserve_of_same rfl, howned _ rfl, rfl⟩

/-- TAKE moves the head of the free list to outbound-owned. -/
theorem take_counts {s t : State} (hp : s.Placed) {f : FrameNo} {rest : List FrameNo}
    (head : s.fpl.freeList = f :: rest)
    (hf : t.fpl.frames = s.fpl.frames.set f .filling) (hl : t.fpl.freeList = rest) (hpeers : t.peers = s.peers) :
    t.freeCount + 1 = s.freeCount ∧ t.reserve = s.reserve ∧ t.outboundOwned = s.outboundOwned + 1 := by
  have howned := outboundOwned_of_set hf
  rw [isOutbound_of_freeList (place_of_head hp (p := .freeList) head rfl)] at howned
  exact ⟨by simp [State.freeCount, head, hl], reserve_of_same hpeers, howned⟩

/-- POP_COMPLETION moves the head of the completion queue to the free list. -/
theorem pop_counts {s t : State} {f : FrameNo} {d : DoneRecord} (was : s.frame f = .done d)
    (hf : t.fpl.frames = s.fpl.frames.set f .free) (hl : t.fpl.freeList = s.fpl.freeList ++ [f])
    (hpeers : t.peers = s.peers) :
    t.freeCount = s.freeCount + 1 ∧ t.reserve = s.reserve ∧ t.outboundOwned + 1 = s.outboundOwned := by
  have howned := outboundOwned_of_set hf
  rw [was] at howned
  exact ⟨by simp [State.freeCount, hl], reserve_of_same hpeers, howned⟩

/-- Settles O21: the counts over TAKE, POST, CANCEL, POP_INBOUND, POP_COMPLETION and RELEASE. -/
theorem poolCountsFollowTheRequests : Obligations.PoolCountsFollowTheRequests := by
  intro s t hp _ hr
  refine ⟨fun ready h => ?_, fun ready h => ?_, fun f was h => ?_, fun n h => ?_, fun h => ?_, fun some_done h => ?_,
    fun f r was h => ?_⟩
  · obtain ⟨f, rest, head, htake⟩ := (takeByItsTest s hr).2.1 ready
    obtain rfl := Host.Outcome.next.inj (htake.symm.trans h)
    exact take_counts hp head rfl rfl rfl
  · obtain rfl := Host.Outcome.next.inj (((takeByItsTest s hr).2.2 ready).symm.trans h)
    obtain ⟨hfree, hreserve, howned⟩ := sameCounts_of_same (s := s) (t := { s with lpt := _ }) rfl rfl
    exact ⟨hfree, hreserve, howned⟩
  · obtain ⟨⟨hfree, hreserve, howned⟩, hlpt⟩ := postFilling_counts (s := begun s false 0xC10) was
    have posted := portWrite_post hr (postByte_filling (s := begun s false 0xC10) was) (by rw [hlpt]; rfl)
    obtain rfl := Host.Outcome.next.inj ((congrArg Host.Outcome.next posted).symm.trans h)
    exact ⟨hfree, hreserve, howned⟩
  · obtain ⟨⟨hfree, hreserve, howned⟩, htxn⟩ := cancelByte_counts (begun s false 0xC12) n
    have cancelled := portWrite_cancel (v := n) hr rfl htxn
    obtain rfl := Host.Outcome.next.inj ((congrArg Host.Outcome.next cancelled).symm.trans h)
    exact ⟨hfree, hreserve, howned⟩
  · cases head : s.ibu.inbound with
    | nil =>
      obtain rfl := Host.Outcome.next.inj (((popInboundMovesTheHead s hr).2 head).symm.trans h)
      obtain ⟨hfree, hreserve, howned⟩ := sameCounts_of_same (s := s) (t := { s with lpt := _ }) rfl rfl
      exact ⟨hfree, hreserve, howned⟩
    | cons f rest =>
      obtain ⟨r, was⟩ := arrived_of_place (place_of_head hp (p := .inboundQueue) head rfl)
      obtain rfl := Host.Outcome.next.inj (((popInboundMovesTheHead s hr).1 f rest r head was).symm.trans h)
      exact ⟨rfl, reserve_of_same rfl, outboundOwned_of_set_same (f := f) rfl (by rw [was]; rfl)⟩
  · obtain ⟨f, rest, head⟩ := List.exists_cons_of_ne_nil some_done
    obtain ⟨d, was⟩ := done_of_place (place_of_head hp (p := .completionQueue) head rfl)
    obtain rfl := Host.Outcome.next.inj (((popCompletionLatchesTheRecord s hr).1 f rest d head was).symm.trans h)
    exact pop_counts was rfl rfl rfl
  · obtain ⟨hfree, hreserve, howned, hlpt⟩ := releaseHeld_counts (s := begun s false 0xC11) was
    have released := portWrite_release hr (releaseByte_held (s := begun s false 0xC11) was) (by rw [hlpt]; rfl)
    obtain rfl := Host.Outcome.next.inj ((congrArg Host.Outcome.next released).symm.trans h)
    exact ⟨hfree, hreserve, howned⟩

end Sys2Proof.Laws
end

section
/-!
SUPPORT. The state after a reset, and the invariants it meets (01 R20, 06 R100, 05 Table 5-1).
-/

namespace Sys2Proof.Laws

open Sys2Proof.Machine

section

variable (straps : Straps) (mem : List Host.Cell) (epoch : Nat) (x : Txn) (sdo : Option Byte) (pending : List Instr)

/-! ## Counts and flags after a reset -/

@[simp] theorem freeCount_afterReset : (State.afterReset straps mem epoch x sdo pending).freeCount = 48 := by
  simp [State.freeCount, State.afterReset, Fpl.atReset]

@[simp] theorem reserve_afterReset : (State.afterReset straps mem epoch x sdo pending).reserve = 0 := by
  simp [State.reserve, PeerEntry.atReset]

@[simp] theorem spare_afterReset : (State.afterReset straps mem epoch x sdo pending).spare = 48 := by
  simp [State.spare]

@[simp] theorem creditBearingOf_afterReset (p : Pos) :
    (State.afterReset straps mem epoch x sdo pending).creditBearingOf p = 0 := by
  simp [State.creditBearingOf, FrameRecord.bearsCreditOf]

@[simp] theorem openSequences_afterReset (p : Pos) :
    (State.afterReset straps mem epoch x sdo pending).openSequences p = 0 := by
  have no_flight : (State.afterReset straps mem epoch x sdo pending).inFlight p = 0 := by
    simp [State.inFlight, FrameRecord.inFlightTo]
  have no_slot : (State.afterReset straps mem epoch x sdo pending).slotCreditTo p = false := rfl
  simp [State.openSequences, no_flight, no_slot, PeerEntry.atReset]

@[simp] theorem fillingSet_afterReset : (State.afterReset straps mem epoch x sdo pending).fillingSet = [] := by
  simp [State.fillingSet, FrameRecord.isFilling]

@[simp] theorem heldSet_afterReset : (State.afterReset straps mem epoch x sdo pending).heldSet = [] := by
  simp [State.heldSet, FrameRecord.isHeld]

@[simp] theorem takeReady_afterReset : (State.afterReset straps mem epoch x sdo pending).takeReady = true :=
  (takeReady_iff _).mpr (by simp)

theorem eventRaw_afterReset : (State.afterReset straps mem epoch x sdo pending).eventRaw = 0x20 := by
  rw [State.eventRaw, takeReady_afterReset]
  rfl

theorem eventStatus_afterReset : (State.afterReset straps mem epoch x sdo pending).eventStatus = 0 := by
  have nothing_enabled : (State.afterReset straps mem epoch x sdo pending).lpt.enable = 0#8 := rfl
  exact (congrArg _ nothing_enabled).trans BitVec.and_zero

theorem irq_afterReset : (State.afterReset straps mem epoch x sdo pending).irq = false := by
  simp [State.irq, eventStatus_afterReset]

/-! ## Invariants after a reset -/

theorem queuesInPostOrder_afterReset :
    (State.afterReset straps mem epoch x sdo pending).QueuesInPostOrder :=
  (queuesInPostOrder_iff _).mpr ⟨placed_afterReset straps mem epoch x sdo pending,
    numbered_afterReset straps mem epoch x sdo pending, sorted_afterReset straps mem epoch x sdo pending⟩

theorem silentOutOfRound_afterReset : (State.afterReset straps mem epoch x sdo pending).SilentOutOfRound :=
  fun _ => ⟨rfl, rfl, rfl, rfl, rfl, rfl, rfl, rfl, rfl, rfl, rfl, rfl, rfl, rfl, rfl⟩

theorem wiresConsistent_afterReset : (State.afterReset straps mem epoch x sdo pending).WiresConsistent := by
  simp [State.WiresConsistent, State.afterReset, Lif.atReset, Fen.atReset]

theorem wakeRests_afterReset : (State.afterReset straps mem epoch x sdo pending).WakeRests :=
  fun _ => ⟨rfl, fun n => by simp [WakeEntry.atReset]⟩

theorem reserveCovered_afterReset : (State.afterReset straps mem epoch x sdo pending).ReserveCovered := by
  simp [State.ReserveCovered]

theorem conservedAt_afterReset (p : Pos) : (State.afterReset straps mem epoch x sdo pending).ConservedAt p := by
  simp [State.ConservedAt, PeerEntry.atReset]

theorem tied_atReset : PeerEntry.atReset.Tied := Or.inl rfl

theorem oneOpenSequence_afterReset (p : Pos) :
    (State.afterReset straps mem epoch x sdo pending).OneOpenSequence p := by
  simp [State.OneOpenSequence, State.sequenceHolders, FrameRecord.holdsSeqTo, PeerEntry.atReset]

theorem sequenceCovered_afterReset (p : Pos) :
    (State.afterReset straps mem epoch x sdo pending).SequenceCovered p := by
  refine ⟨by simp, by simp, fun f q o posted => ?_, fun o opened => ?_, fun o slot => nomatch slot⟩
  · cases posted.symm.trans (congrArg FrameRecord.posted? (frame_afterReset straps mem epoch x sdo pending f))
  · cases opened.symm.trans (congrArg PeerEntry.openCredit (peer_afterReset straps mem epoch x sdo pending p))

theorem creditKept_afterReset : (State.afterReset straps mem epoch x sdo pending).CreditKept :=
  ⟨placed_afterReset straps mem epoch x sdo pending, peer_afterReset straps mem epoch x sdo pending _,
    fun p => ⟨conservedAt_afterReset straps mem epoch x sdo pending p, by rw [peer_afterReset]; exact tied_atReset,
      sequenceCovered_afterReset straps mem epoch x sdo pending p⟩,
    reserveCovered_afterReset straps mem epoch x sdo pending, fun occupied => absurd rfl occupied,
    fun _ kept => nomatch kept⟩

end

/-- Settles O4: what a reset stores is read off its tables, and the counts and flags over frames and entries follow
from every frame being FREE and every entry ABSENT. -/
theorem resetLeavesTheTables : Obligations.ResetLeavesTheTables := by
  intro straps mem e x sdo queue t
  refine ⟨rfl, rfl, rfl, rfl, rfl, rfl, rfl, rfl, rfl, rfl, rfl, rfl, rfl, rfl, rfl, rfl, rfl, rfl, rfl, rfl, rfl,
    fun p => ?entries, frame_afterReset straps mem e x sdo queue, rfl, freeCount_afterReset straps mem e x sdo queue,
    spare_afterReset straps mem e x sdo queue, reserve_afterReset straps mem e x sdo queue,
    outboundOwned_afterReset straps mem e x sdo queue, fillingSet_afterReset straps mem e x sdo queue,
    heldSet_afterReset straps mem e x sdo queue, rfl, rfl, rfl, rfl, rfl, rfl, rfl, rfl, rfl, rfl, rfl,
    eventRaw_afterReset straps mem e x sdo queue, rfl, eventStatus_afterReset straps mem e x sdo queue,
    irq_afterReset straps mem e x sdo queue, rfl, rfl, rfl, rfl, rfl, fun n => ?wakeEntries⟩
  case entries =>
    rw [peer_afterReset]
    exact ⟨rfl, rfl, rfl, rfl, rfl, rfl, rfl, rfl, rfl⟩
  case wakeEntries =>
    rw [wakeEntry_afterReset]
    exact ⟨rfl, rfl, rfl, rfl, rfl⟩

/-- Settles O60, one lemma per invariant. -/
theorem resetMeetsTheInvariants : Obligations.ResetMeetsTheInvariants := by
  intro straps e t
  have credit : t.CreditKept := creditKept_afterReset straps [] e .idle none []
  have ⟨placed, own, _, reserve, _, _⟩ := credit
  exact ⟨⟨rfl, rfl⟩, own, placed, queuesInPostOrder_afterReset straps [] e .idle none [],
    outboundBounded_afterReset straps [] e .idle none [], attemptsBounded_afterReset straps [] e .idle none [],
    countsInRange_afterReset straps [] e .idle none [], silentOutOfRound_afterReset straps [] e .idle none [],
    wiresConsistent_afterReset straps [] e .idle none [], wakeRests_afterReset straps [] e .idle none [],
    reserve, credit, fun p => ⟨conservedAt_afterReset straps [] e .idle none [] p,
      by rw [peer_afterReset]; exact tied_atReset, oneOpenSequence_afterReset straps [] e .idle none [] p⟩⟩

end Sys2Proof.Laws
end

section
/-!
SUPPORT. The choice at the CLAIM cell (02 R25, R27; 04 R73, R74, R78): when a frame is sendable, when a peer is a
credit-frame candidate, and which candidate the fold over the peers keeps.
-/

namespace Sys2Proof.Machine

/-- Of two credit-frame candidates p comes before r: the larger owed, and of equals the lower position (04 R74). -/
def State.CreditBefore (s : State) (p r : Pos) : Prop :=
  (s.peer r).owed < (s.peer p).owed ∨ ((s.peer r).owed = (s.peer p).owed ∧ p ≤ r)

end Sys2Proof.Machine

namespace Sys2Proof.Laws

open Sys2Proof.Machine

/-! ## Sendability -/

theorem seqElsewhere_eq_false_iff (s : State) (p : Pos) (f : FrameNo) :
    s.seqElsewhere p f = false ↔ ∀ g, g ≠ f → (s.frame g).holdsSeqTo p = false := by
  simp [State.seqElsewhere]

theorem hasOpenSeq_eq_false_iff (s : State) (p : Pos) :
    s.hasOpenSeq p = false ↔ (s.peer p).openCredit = none ∧ ∀ g, (s.frame g).holdsSeqTo p = false := by
  simp [State.hasOpenSeq, and_comm]

theorem sendable_message_iff {s : State} {f : FrameNo} {q : Posted} {p : Pos} (was : s.frame f = .queued q)
    (hp : q.peer = some p) : s.sendable f = true ↔
      (s.peer p).present = true ∧ 1 ≤ (s.peer p).held ∧ (s.peer p).openCredit = none ∧
      (∀ g, g ≠ f → (s.frame g).holdsSeqTo p = false) ∧
      (s.queueOf q.cls).find? (fun g => (s.frame g).queuedTo p) = some f := by
  simp only [State.sendable, was, hp, Bool.and_eq_true, Bool.not_eq_true', decide_eq_true_eq, beq_iff_eq,
    Option.isNone_iff_eq_none, seqElsewhere_eq_false_iff, and_assoc]

theorem sendable_notice_iff {s : State} {f : FrameNo} {q : Posted} (was : s.frame f = .queued q)
    (hp : q.peer = none) : s.sendable f = true ↔
      (s.queueOf q.cls).find? (fun g => (s.frame g).queuedNotice) = some f := by
  simp only [State.sendable, was, hp, beq_iff_eq]

/-! ## Credit-frame candidates -/

theorem creditCandidate_iff (s : State) (p : Pos) : s.creditCandidate p = true ↔
    (s.peer p).present = true ∧ (s.peer p).openCredit = none ∧ (∀ g, (s.frame g).holdsSeqTo p = false) ∧
    (∀ g, g ∈ s.osc.urgent ∨ g ∈ s.osc.routine → (s.frame g).queuedTo p = true → s.sendable g = false) ∧
    1 ≤ (s.peer p).owed ∧ 1 ≤ s.spare := by
  simp only [State.creditCandidate, Bool.and_eq_true, Bool.not_eq_true', hasOpenSeq_eq_false_iff, List.any_eq_false,
    List.mem_append, decide_eq_true_eq, le_min_iff, not_and, Bool.not_eq_true, and_assoc]

/-- The fold keeps no candidate of none, and of rising positions the one that comes before every other. -/
theorem foldl_betterCredit (s : State) (l : List Pos) (rising : l.Pairwise (· < ·)) :
    match l.foldl s.betterCredit none with
    | none => l = []
    | some p => p ∈ l ∧ ∀ r ∈ l, s.CreditBefore p r := by
  induction l using List.reverseRecOn with
  | nil => rfl
  | append_singleton l x ih =>
    obtain ⟨rising, -, below⟩ := List.pairwise_append.mp rising
    have best := ih rising
    rw [List.foldl_append, List.foldl_cons, List.foldl_nil]
    cases h : l.foldl s.betterCredit none with
    | none =>
      obtain rfl : l = [] := by simpa [h] using best
      simp [State.betterCredit, State.CreditBefore]
    | some b =>
      obtain ⟨hb, before⟩ : b ∈ l ∧ ∀ r ∈ l, s.CreditBefore b r := by simpa [h] using best
      by_cases larger : (s.peer b).owed < (s.peer x).owed
      · rw [show s.betterCredit (some b) x = some x from if_pos larger]
        refine ⟨by simp, fun r hr => ?_⟩
        rcases List.mem_append.mp hr with hr | hr
        · have := before r hr
          unfold State.CreditBefore at this ⊢
          omega
        · obtain rfl := List.mem_singleton.mp hr
          exact .inr ⟨rfl, le_refl _⟩
      · rw [show s.betterCredit (some b) x = some b from if_neg larger]
        refine ⟨List.mem_append_left _ hb, fun r hr => ?_⟩
        rcases List.mem_append.mp hr with hr | hr
        · exact before r hr
        · obtain rfl := List.mem_singleton.mp hr
          exact (Nat.lt_or_eq_of_le (not_lt.mp larger)).imp_right fun equal => ⟨equal, (below b hb r hr).le⟩

theorem mem_peerPositions (s : State) (p : Pos) : p ∈ s.peerPositions ↔ p ≠ s.own := by
  simp [State.peerPositions]

theorem rising_peerPositions (s : State) : s.peerPositions.Pairwise (· < ·) :=
  (List.pairwise_lt_finRange 16).filter _

theorem bestCredit_spec (s : State) :
    match s.bestCredit with
    | none => s.peerPositions.filter s.creditCandidate = []
    | some p => p ∈ s.peerPositions.filter s.creditCandidate ∧
        ∀ r ∈ s.peerPositions.filter s.creditCandidate, s.CreditBefore p r :=
  foldl_betterCredit s _ ((rising_peerPositions s).filter _)

/-- The candidate chosen is a peer, and comes before every other candidate (04 R74). -/
theorem bestCredit_some {s : State} {p : Pos} (h : s.bestCredit = some p) :
    p ≠ s.own ∧ s.creditCandidate p = true ∧
      ∀ r, r ≠ s.own → s.creditCandidate r = true → s.CreditBefore p r := by
  have best := bestCredit_spec s
  simp only [h, List.mem_filter, mem_peerPositions] at best
  obtain ⟨⟨peer, candidate⟩, before⟩ := best
  exact ⟨peer, candidate, fun r hr hc => before r ⟨hr, hc⟩⟩

theorem bestCredit_none {s : State} (h : s.bestCredit = none) (r : Pos) (hr : r ≠ s.own) :
    s.creditCandidate r = false := by
  have best := bestCredit_spec s
  simp only [h, List.filter_eq_nil_iff, mem_peerPositions, Bool.not_eq_true] at best
  exact best r hr

/-! ## The choice -/

theorem choice_urgent {s : State} {f : FrameNo} (h : s.osc.urgent.find? s.sendable = some f) :
    s.choice = some (.frame f) := by
  simp [State.choice, State.sendableOf, State.queueOf, h]

theorem choice_retry {s : State} {p : Pos} (hu : s.osc.urgent.find? s.sendable = none)
    (h : s.peerPositions.find? (fun p => (s.peer p).openCredit.isSome) = some p) :
    s.choice = some (.creditRetry p) := by
  simp [State.choice, State.sendableOf, State.queueOf, State.retryChoice, hu, h]

theorem choice_last {s : State} (hu : s.osc.urgent.find? s.sendable = none)
    (h : s.peerPositions.find? (fun p => (s.peer p).openCredit.isSome) = none) :
    s.choice = if s.osc.creditLast then (s.sendableOf .routine).or s.creditChoice
      else s.creditChoice.or (s.sendableOf .routine) := by
  simp [State.choice, State.sendableOf, State.queueOf, State.retryChoice, hu, h]

theorem hasTransmission_iff (s : State) :
    s.hasTransmission = true ↔ s.rdc.participation = .member ∧ s.choice ≠ none := by
  simp [State.hasTransmission, State.isMember, Option.isSome_iff_ne_none]

/-- Settles O34: sendability, the candidates and the best of them, and the steps of the choice in their order. -/
theorem choiceAtTheClaimCell : Obligations.ChoiceAtTheClaimCell := fun s =>
  ⟨fun _ _ _ was hp => sendable_message_iff was hp, fun _ _ was hp => sendable_notice_iff was hp,
    creditCandidate_iff s, fun _ => bestCredit_some, bestCredit_none, fun _ => choice_urgent,
    fun hu => ⟨fun _ => choice_retry hu, choice_last hu⟩, hasTransmission_iff s⟩

end Sys2Proof.Laws
end

section
/-!
SUPPORT. The start of the own window with a pool frame (02 R31, R42): what it leaves alone, the drive of its first cell,
and what each kind of pool frame takes.
-/

namespace Sys2Proof.Machine

/-- FEN after a window start: the transmission, and what a mark in this cell would undo. -/
def Fen.sends (e : Fen) (x : Tx) (u : StartUndo) : Fen :=
  { e with tx := some x, undo := e.undo.map fun y => { y with start := some u } }

end Sys2Proof.Machine

namespace Sys2Proof.Laws

open Sys2Proof.Machine

/-! ## The first cell -/

theorem bytes_cons {x : Tx} {b : Byte} {rest : List Byte} (h : x.header = b :: rest) :
    ∃ tail, x.bytes = b :: tail := by
  unfold Tx.bytes
  split
  · exact ⟨_, h⟩
  · exact ⟨_, by rw [h]; rfl⟩

/-- The claimant drives cell 0 exactly when the first bit of its header is 0 (07 R121). -/
theorem drives_first {x : Tx} {b : Byte} {rest : List Byte} (h : x.header = b :: rest) (hc : x.collidedAt = none) :
    x.drives 0 = !b.getLsbD 7 := by
  obtain ⟨tail, hb⟩ := bytes_cons h
  simp [Tx.drives, Tx.bit, cellBit, hb, hc]

theorem source_high_bit (h : HeaderFields) :
    (BitVec.ofNat 8 (16 * h.source.val + h.dest.val)).getLsbD 7 = decide (8 ≤ h.source.val) := by
  have hd := h.dest.isLt
  have hs := h.source.isLt
  simp only [BitVec.getLsbD_ofNat, Nat.testBit_eq_decide_div_mod_eq]
  simp only [Nat.reduceLT, decide_true, Bool.true_and, decide_eq_decide]
  omega

/-- The source's position stands in the first four cells of the header (11 Table 11-1). -/
theorem header_drives_first (h : HeaderFields) (payload : List Byte) :
    ({ header := encodeHeader h, payload := payload, collidedAt := none } : Tx).drives 0 = true ↔ h.source.val < 8 := by
  rw [drives_first rfl rfl, source_high_bit]
  simp

/-! ## The window start -/

theorem windowStart_due {s : State} {y : Transmission} (hr : s.resetAsserted = false) (hw : s.ownWindow = true)
    (hs : s.rdc.stage = .header) (htx : s.fen.tx = none) (slot : s.osc.slot = some y) :
    exec .windowStart s = .next s.beginOwnWindow :=
  whenDue_due hr (by simp [hw, hs, htx, slot])

/-- What no window start changes. -/
theorem beginOwnWindow_frame (s : State) :
    s.beginOwnWindow.fen = { s.fen with undo := s.beginOwnWindow.fen.undo, tx := s.beginOwnWindow.fen.tx } ∧
    s.beginOwnWindow.lif.wclk = .low ∧ s.beginOwnWindow.rdc = s.rdc ∧ s.beginOwnWindow.lpt = s.lpt ∧
    s.SameElsewhere s.beginOwnWindow := by
  obtain ⟨peers, frames, osc, tx, undo, h⟩ := starts_startWindow s
  unfold State.beginOwnWindow State.SameElsewhere
  rw [h]
  simp [State.fall]

/-- The drive of the first cell is that of the transmission. -/
theorem beginOwnWindow_drive {s : State} {x : Tx} (hw : s.ownWindow = true) (h : s.startWindow.fen.tx = some x) :
    s.beginOwnWindow.lif.wdatDrive = x.drives 0 := by
  have own : s.startWindow.ownWindow = true := by
    obtain ⟨peers, frames, osc, tx, undo, hs⟩ := starts_startWindow s
    rw [hs]
    exact hw
  change s.startWindow.ownDrives 0 = _
  simp [State.ownDrives, h, own]

/-! ## The pool frames -/

theorem startWindow_frame {s : State} {f : FrameNo} {q : Posted} {c : Bool} (slot : s.osc.slot = some (.frame f))
    (was : s.frame f = .sending q c) : s.startWindow = s.startFrame f q c := by
  simp only [State.startWindow, slot, was]

/-- A first window takes the send sequence and a grant, which passes from owed to pending (02 R31, 04 R66, R67). -/
theorem startFrame_first {s : State} {f : FrameNo} {q : Posted} {p : Pos} (hp : q.peer = some p) (hown : p ≠ s.own)
    (ho : q.openSeq = none) : s.startFrame f q false = { s with
      peers := s.peers.set p ((s.peer p).grantBuilt (s.grantTo p))
      fpl := { s.fpl with frames := s.fpl.frames.set f (.sending
        { q with openSeq := some { seq := (s.peer p).sendSeq, grant := s.grantTo p } } false) }
      osc := { s.osc with creditLast := false }
      fen := s.fen.sends
        { header := encodeHeader (s.poolHeader q { seq := (s.peer p).sendSeq, grant := s.grantTo p })
          payload := s.payloadBytes f q.length, collidedAt := none }
        (.grantBuilt f p (s.grantTo p) s.osc.creditLast) } := by
  simp only [State.startFrame, Bool.false_eq_true, if_false, hp, ho]
  rw [updPeer_of_ne _ (by exact hown)]
  rfl

/-- A MESSAGE with a sequence takes nothing. -/
theorem startFrame_retry {s : State} {f : FrameNo} {q : Posted} {p : Pos} {o : OpenSeq} (hp : q.peer = some p)
    (ho : q.openSeq = some o) : s.startFrame f q false = { s with
      osc := { s.osc with creditLast := false }
      fen := s.fen.sends
        { header := encodeHeader (s.poolHeader q o), payload := s.payloadBytes f q.length, collidedAt := none }
        (.header s.osc.creditLast) } := by
  simp only [State.startFrame, Bool.false_eq_true, if_false, hp, ho]
  rfl

/-- A NOTICE takes nothing. -/
theorem startFrame_notice {s : State} {f : FrameNo} {q : Posted} (hp : q.peer = none) :
    s.startFrame f q false = { s with
      osc := { s.osc with creditLast := false }
      fen := s.fen.sends
        { header := encodeHeader (s.poolHeader q { seq := 0, grant := 0 }), payload := s.payloadBytes f q.length
          collidedAt := none }
        (.header s.osc.creditLast) } := by
  simp only [State.startFrame, Bool.false_eq_true, if_false, hp]
  rfl

theorem completeCancelled_eq {s : State} {f : FrameNo} {q : Posted} (n : Nat)
    (hown : ∀ p, q.peer = some p → p ≠ s.own) : s.completeCancelled f q n =
      { s.complete f (q.doneRecord .cancelled n) with peers := s.peersAfterCancel q n } := by
  rw [completeCancelled_of rfl rfl, peers_settleCancelled n hown]
  rfl

/-- A frame with a cancel request completes, and EMPTY takes its place (02 R42). -/
theorem startFrame_cancelled {s : State} {f : FrameNo} {q : Posted} (hown : ∀ p, q.peer = some p → p ≠ s.own) :
    s.startFrame f q true = { s with
      peers := s.peersAfterCancel q q.attempts
      fpl := { s.fpl with frames := s.fpl.frames.set f (.done (q.doneRecord .cancelled q.attempts)) }
      osc := { s.osc with slot := some .empty, completion := s.osc.completion ++ [f] }
      fen := s.fen.sends { header := emptyHeader, payload := [], collidedAt := none }
        (.cancelled f q s.osc.creditLast) } := by
  simp only [State.startFrame, if_true]
  rw [completeCancelled_eq _ hown]
  rfl

/-! ## The grant and the counts -/

/-- A grant to p takes its frames out of spare into the reserve (01 R6). -/
theorem reserve_grantBuilt {s t : State} {p : Pos} (k : Nat)
    (h : t.peers = s.peers.set p ((s.peer p).grantBuilt k)) : t.reserve = s.reserve + k := by
  have entry : ∀ r, (t.peer r).granted + (t.peer r).pending =
      (s.peer r).granted + (s.peer r).pending + if r = p then k else 0 := by
    intro r
    by_cases hr : r = p
    · subst hr
      simp [State.peer, h, PeerEntry.grantBuilt]
      omega
    · have hv : p.val ≠ r.val := fun hv => hr (Fin.ext hv.symm)
      simp [State.peer, h, hr, hv]
  simp only [State.reserve, entry, ← Fin.sum_univ_def, Finset.sum_add_distrib]
  simp

theorem spare_grantBuilt {s t : State} {p : Pos} (k : Nat) (hf : t.fpl.freeList = s.fpl.freeList)
    (h : t.peers = s.peers.set p ((s.peer p).grantBuilt k)) : t.spare = s.spare - k := by
  have := reserve_grantBuilt k h
  simp only [State.spare, State.freeCount, hf, this]
  omega

/-! ## The statements -/

/-- The first cell of a header that names the own position as its source. -/
theorem beginOwnWindow_drive_header {s : State} {h : HeaderFields} {payload : List Byte} (hw : s.ownWindow = true)
    (source : h.source = s.own)
    (htx : s.startWindow.fen.tx = some { header := encodeHeader h, payload := payload, collidedAt := none }) :
    s.beginOwnWindow.lif.wdatDrive = true ↔ s.own.val < 8 := by
  rw [beginOwnWindow_drive hw htx, header_drives_first, source]

/-- Settles O37: the start of the own window with a pool frame, by what the frame takes. -/
theorem windowStartOfAPoolFrame : Obligations.WindowStartOfAPoolFrame := by
  intro s f q hr hw hs htx slot was sends
  have next := windowStart_due hr hw hs htx slot
  have start := startWindow_frame slot was
  obtain ⟨hfen, hclk, hrdc, hlpt, same⟩ := beginOwnWindow_frame s
  have sent : ∀ h : HeaderFields, h.source = s.own →
      s.startWindow.fen.tx = some
        { header := encodeHeader h, payload := s.payloadBytes f q.length, collidedAt := none } →
      s.startWindow.osc = { s.osc with creditLast := false } → sends s.beginOwnWindow h :=
    fun h source tx osc => ⟨tx, hfen, hclk, beginOwnWindow_drive_header hw source tx, hrdc, osc, hlpt, same⟩
  refine ⟨fun p hp hown ho => ?_, fun p o hp ho => ?_, fun hp => ?_⟩
  · rw [startFrame_first hp hown ho] at start
    have peers := congrArg State.peers start
    refine ⟨_, next, sent _ rfl ?_ (congrArg State.osc start), congrArg State.fpl start, peers,
      reserve_grantBuilt _ peers, spare_grantBuilt _ (congrArg (·.fpl.freeList) start) peers⟩
    rw [start]
    simp only [Fen.sends, State.poolHeader, hp]
    rfl
  · rw [startFrame_retry hp ho] at start
    have pool := congrArg State.fpl start
    have peers := congrArg State.peers start
    refine ⟨_, next, sent _ rfl ?_ (congrArg State.osc start), pool, peers⟩
    rw [start]
    simp only [Fen.sends, State.poolHeader, hp]
  · rw [startFrame_notice hp] at start
    have pool := congrArg State.fpl start
    have peers := congrArg State.peers start
    refine ⟨_, next, sent _ rfl ?_ (congrArg State.osc start), pool, peers⟩
    rw [start]
    simp only [Fen.sends, State.poolHeader, hp]

/-- Settles O38: the cancel check at the start of the own window. -/
theorem cancelCheckAtWindowStart : Obligations.CancelCheckAtWindowStart := by
  intro s f q hr hw hs htx slot was hown
  have start := (startWindow_frame slot was).trans (startFrame_cancelled hown)
  have tx : s.startWindow.fen.tx = some { header := emptyHeader, payload := [], collidedAt := none } := by
    rw [start]
    rfl
  obtain ⟨hfen, hclk, hrdc, hlpt, same⟩ := beginOwnWindow_frame s
  refine ⟨_, windowStart_due hr hw hs htx slot, congrArg State.osc start, congrArg State.fpl start,
    congrArg State.peers start, tx, hfen, hclk, ?_, hrdc, hlpt, same⟩
  rw [beginOwnWindow_drive hw tx, drives_first rfl rfl]
  rfl

end Sys2Proof.Laws
end

section
/-!
SUPPORT. The settlement of the own window (02 R33) up to the participation state it leaves: the slot empties, the streak
is counted, and a third collision in a row leaves the round with nothing more to withdraw (07 R131, 06 R106).
-/

namespace Sys2Proof.Machine

/-- The station at the settlement of its own EMPTY, before the streak is counted (02 R39, 03 R48). -/
def State.emptySettled (s : State) (x : Tx) : State :=
  { s with
    lif := (s.rise s.clocks false s.lif.wdat).lif
    rdc := { s.rdc with stage := .mark }
    osc := { s.osc with slot := none }
    fen := { s.fen with
      staging := { s.fen.staging with
        header := if x.collidedAt = none then x.headerOnLine else s.fen.staging.header }
      undo := none } }

/-- FEN at the outcome of the own window: the payload cells as read, where no command gave them before (03 R48; log
44). -/
def State.fenAtOutcome (s : State) (x : Tx) : Fen :=
  { s.fen with staging := { s.fen.staging with
      payload := if x.collidedAt = none ∧ s.rdc.stage = .body then x.payload else s.fen.staging.payload } }

/-- The station as its own window's outcome finds it: the cells read, the slot empty (02 R33). -/
def State.atOutcome (s : State) (x : Tx) : State := ({ s with fen := s.fenAtOutcome x } : State).setSlot none

/-- The transmission in the slot settled, with the answer that the cells read. -/
def State.outcomeSettled (s : State) (x : Tx) (y : Transmission) (a b : Level) : State :=
  ({ s with fen := s.fenAtOutcome x } : State).settleWindow y x.collidedAt.isSome a b

end Sys2Proof.Machine

namespace Sys2Proof.Laws

open Sys2Proof.Machine

/-! ## What the acts of a settlement do to the slot -/

section
variable (s : State)

@[simp] theorem slot_setSlot (x : Option Transmission) : (s.setSlot x).osc.slot = x := rfl

@[simp] theorem slot_complete (f : FrameNo) (d : DoneRecord) : (s.complete f d).osc.slot = s.osc.slot := rfl

@[simp] theorem slot_updPeer (p : Pos) (g : PeerEntry → PeerEntry) : (s.updPeer p g).osc.slot = s.osc.slot := by
  rw [updPeer_only]

@[simp] theorem slot_completeCancelled (f : FrameNo) (q : Posted) (n : Nat) :
    (s.completeCancelled f q n).osc.slot = s.osc.slot := by
  rw [completeCancelled_only]

@[simp] theorem slot_enqueue (f : FrameNo) (q : Posted) : (s.enqueue f q).osc.slot = s.osc.slot :=
  (enqueue_keeps s f q).2.1

@[simp] theorem slot_losePeer (p : Pos) (m : Nat) (o : Completion) : (s.losePeer p m o).osc.slot = s.osc.slot := by
  obtain ⟨_, _, _, _, _, h⟩ := losePeer_only s p m o
  rw [h]

@[simp] theorem slot_settleMessage (f : FrameNo) (q : Posted) (c : Bool) (p : Pos) (a : Answer) :
    (s.settleMessage f q c p a).osc.slot = s.osc.slot := by
  unfold State.settleMessage
  cases a <;> dsimp only
  case accepted => simp
  case refused => simp
  all_goals
    split
    · simp
    · split <;> simp

@[simp] theorem slot_settleNewCredit (p : Pos) (o : OpenSeq) (a : Answer) :
    (s.settleNewCredit p o a).osc.slot = s.osc.slot := by
  cases a <;> simp [State.settleNewCredit]

@[simp] theorem slot_settleRetry (p : Pos) (o : OpenCredit) (a : Answer) :
    (s.settleRetry p o a).osc.slot = s.osc.slot := by
  unfold State.settleRetry
  cases a <;> dsimp only
  case accepted => simp
  case refused => simp
  all_goals split <;> simp

/-- The settlement of a window leaves the slot empty (02 R33). -/
@[simp] theorem slot_settleWindow (y : Transmission) (collided : Bool) (a b : Level) :
    (s.settleWindow y collided a b).osc.slot = none := by
  unfold State.settleWindow
  cases y with
  | frame f =>
    dsimp only
    split
    · split
      · simp
      · split <;> simp
    · simp
  | creditRetry p =>
    dsimp only
    split <;> simp
  | newCredit p built => cases built <;> simp
  | empty => simp

/-- A withdrawal leaves the slot empty (02 R40). -/
@[simp] theorem slot_withdraw : s.withdraw.osc.slot = none := by
  unfold State.withdraw
  dsimp only
  split
  · simp
  · simp
  · simp
  · split
    · split
      · simp
      · split <;> simp
    · simp
  · simp
  · split
    · split
      · simp
      · split <;> simp
    · simp

end

theorem setSlot_self {s : State} {x : Option Transmission} (h : s.osc.slot = x) : s.setSlot x = s := by
  subst h
  rfl

/-- There is nothing to withdraw from an empty slot. -/
theorem withdraw_none {s : State} (h : s.osc.slot = none) : s.withdraw = s := by
  simp only [State.withdraw, h]
  exact setSlot_self h

/-! ## Leaving the round -/

theorem leaveRound_traffic (s : State) (entered : Participation) :
    (s.leaveRound entered).peers = s.withdraw.peers ∧ (s.leaveRound entered).fpl = s.withdraw.fpl ∧
    (s.leaveRound entered).osc = s.withdraw.osc := ⟨rfl, rfl, rfl⟩

theorem leaveRound_outOfRound (s : State) (entered : Participation) :
    (s.leaveRound entered).OutOfRound entered := by
  simp [State.OutOfRound, State.leaveRound, Lif.released]

theorem enterConflict_outOfRound (s : State) : s.enterConflict.OutOfRound .conflict :=
  leaveRound_outOfRound s .conflict

/-! ## What lies elsewhere -/

theorem sameElsewhere_trans {s t u : State} (h : s.SameElsewhere t) (k : t.SameElsewhere u) : s.SameElsewhere u := by
  unfold State.SameElsewhere at h k ⊢
  simp only [h, k, and_self]

theorem sameElsewhere_of_settles {s t : State} (h : Settles s t) : s.SameElsewhere t := by
  obtain ⟨peers, frames, osc, peer, rfl⟩ := h
  simp [State.SameElsewhere]

theorem sameElsewhere_leaveRound (s : State) (entered : Participation) :
    s.SameElsewhere (s.leaveRound entered) :=
  sameElsewhere_trans (sameElsewhere_of_settles (settles_withdraw s))
    (by simp [State.SameElsewhere, State.leaveRound, Lif.released])

/-! ## The collision streak -/

/-- The streak after a settlement in the window of `x` that leads to `stage` (07 R131, 06 R106). -/
theorem countStreak_streak {s u : State} (x : Tx) {stage : Stage} (hu : u.rdc = { s.rdc with stage := stage }) :
    let t := u.countStreak x.collidedAt.isSome
    (x.collidedAt = none → t.rdc = { s.rdc with stage := stage, streak := 0 }) ∧
    (x.collidedAt ≠ none → s.rdc.streak + 1 < 3 →
      t.rdc = { s.rdc with stage := stage, streak := s.rdc.streak + 1 }) ∧
    (x.collidedAt ≠ none → 3 ≤ s.rdc.streak + 1 → t.OutOfRound .conflict ∧ t.lpt.latched.line = true) := by
  have streak : u.rdc.streak = s.rdc.streak := by rw [hu]
  refine ⟨fun h => ?_, fun h below => ?_, fun h third => ?_⟩
  · simp [State.countStreak, h, hu]
  · have : ¬ 3 ≤ s.rdc.streak + 1 := by omega
    simp [State.countStreak, Option.isSome_iff_ne_none.mpr h, Config.maxStreak, this, hu]
  · have conflict : u.countStreak x.collidedAt.isSome = u.enterConflict := by
      simp [State.countStreak, Option.isSome_iff_ne_none.mpr h, streak, Config.maxStreak, third]
    rw [conflict]
    exact ⟨enterConflict_outOfRound u, rfl⟩

/-- With the slot empty the count of the streak changes no entry, record or queue, not even by a conflict. -/
theorem countStreak_traffic {u : State} (empty : u.osc.slot = none) (collided : Bool) :
    (u.countStreak collided).peers = u.peers ∧ (u.countStreak collided).fpl = u.fpl ∧
    (u.countStreak collided).osc = u.osc ∧
    (u.countStreak collided).lpt.latched.peer = u.lpt.latched.peer := by
  have conflict : u.enterConflict.peers = u.peers ∧ u.enterConflict.fpl = u.fpl ∧ u.enterConflict.osc = u.osc ∧
      u.enterConflict.lpt.latched.peer = u.lpt.latched.peer := by
    simp [State.enterConflict, State.leaveRound, State.latchLine, withdraw_none empty]
  unfold State.countStreak
  split
  · split
    · exact conflict
    · exact ⟨rfl, rfl, rfl, rfl⟩
  · exact ⟨rfl, rfl, rfl, rfl⟩

theorem sameElsewhere_countStreak (u : State) (collided : Bool) : u.SameElsewhere (u.countStreak collided) := by
  unfold State.countStreak
  split
  · split
    · exact sameElsewhere_trans (sameElsewhere_leaveRound u .conflict)
        (by simp [State.SameElsewhere, State.enterConflict, State.latchLine])
    · simp [State.SameElsewhere]
  · simp [State.SameElsewhere]

/-- A released WDAT stays released. -/
theorem countStreak_wdatDrive {u : State} (h : u.lif.wdatDrive = false) (collided : Bool) :
    (u.countStreak collided).lif.wdatDrive = false := by
  unfold State.countStreak
  split
  · split
    · obtain ⟨-, -, released, -⟩ := enterConflict_outOfRound u
      exact released
    · exact h
  · exact h

/-! ## In the own window -/

section
variable {s : State} {x : Tx}

theorem ownSending_eq (own : s.InOwnWindow x) : s.ownSending = x.collidedAt.isNone := by
  obtain ⟨-, window, tx⟩ := own
  simp [State.ownSending, window, tx]

theorem ownCollided_eq (own : s.InOwnWindow x) : s.ownCollided = x.collidedAt.isSome := by
  obtain ⟨-, window, tx⟩ := own
  simp [State.ownCollided, window, tx]

/-! ### EMPTY -/

theorem emptySettlement_due (own : s.InOwnWindow x) (slot : s.osc.slot = some .empty)
    (due : (x.collidedAt = none ∧ s.rdc.stage = .header) ∨ (x.collidedAt ≠ none ∧ s.rdc.stage = .mark)) :
    exec .emptySettlement s = .next s.settleEmpty := by
  refine whenDue_due own.1 ?_
  unfold State.emptyDue
  rw [ownSending_eq own, ownCollided_eq own]
  rcases due with ⟨h, stage⟩ | ⟨h, stage⟩
  · simp [slot, h, stage]
  · simp [slot, stage, Option.isSome_iff_ne_none.mpr h]

theorem readOwnHeader_eq (own : s.InOwnWindow x) : s.readOwnHeader = { s with
    fen := { s.fen with staging := { s.fen.staging with
      header := if x.collidedAt = none then x.headerOnLine else s.fen.staging.header } } } := by
  have sending := ownSending_eq own
  obtain ⟨-, -, tx⟩ := own
  unfold State.readOwnHeader
  rw [tx]
  dsimp only
  rw [sending]
  by_cases h : x.collidedAt = none
  · rw [if_pos h, h]
    rfl
  · rw [if_neg h, if_neg (by simpa using h)]

theorem settleEmpty_eq (own : s.InOwnWindow x) :
    s.settleEmpty = (s.emptySettled x).countStreak x.collidedAt.isSome := by
  unfold State.settleEmpty
  rw [readOwnHeader_eq own, ownCollided_eq own]
  rfl

/-! ### The outcome of a frame -/

theorem readOwnPayload_eq (own : s.InOwnWindow x) : s.readOwnPayload = { s with fen := s.fenAtOutcome x } := by
  have sending := ownSending_eq own
  obtain ⟨-, -, tx⟩ := own
  unfold State.readOwnPayload State.fenAtOutcome
  rw [tx]
  dsimp only
  rw [sending]
  by_cases h : x.collidedAt = none ∧ s.rdc.stage = .body
  · rw [if_pos h, if_pos (by simpa using h)]
    rfl
  · rw [if_neg h, if_neg (by simpa using h)]

@[simp] theorem slot_outcomeSettled (s : State) (x : Tx) (y : Transmission) (a b : Level) :
    (s.outcomeSettled x y a b).osc.slot = none :=
  slot_settleWindow _ y _ a b

theorem outcome_due {y : Transmission} (own : s.InOwnWindow x) (stage : s.rdc.stage = .body ∨ s.rdc.stage = .judged)
    (slot : s.osc.slot = some y) (frame : y ≠ .empty) (a b : Level) :
    exec (.outcome a b) s = .next (s.endOwnWindow y a b) := by
  obtain ⟨hr, window, tx⟩ := own
  have due : s.outcomeDue = true := by
    rcases stage with stage | stage <;> simp [State.outcomeDue, window, tx, stage, slot, frame]
  refine (whenDue_due hr due).trans ?_
  simp only [slot]

/-- The outcome: the transmission is settled, cell B rises, and the streak is counted. -/
theorem endOwnWindow_eq (own : s.InOwnWindow x) (y : Transmission) (a b : Level) : ∃ l : Lif,
    l.straps = s.lif.straps ∧ s.endOwnWindow y a b =
      ({ s.outcomeSettled x y a b with lif := l, rdc := { s.rdc with stage := .answered } } : State).countStreak
        x.collidedAt.isSome := by
  unfold State.endOwnWindow
  rw [readOwnPayload_eq own, ownCollided_eq own]
  obtain ⟨peers, frames, osc, peer, h⟩ :=
    settles_settleWindow { s with fen := s.fenAtOutcome x } y x.collidedAt.isSome a b
  unfold State.outcomeSettled
  rw [h]
  refine ⟨_, ?_, rfl⟩
  rfl

/-- The entries, records and queues after an outcome are those of the settlement. -/
theorem endOwnWindow_traffic (own : s.InOwnWindow x) (y : Transmission) (a b : Level) :
    (s.endOwnWindow y a b).peers = (s.outcomeSettled x y a b).peers ∧
    (s.endOwnWindow y a b).fpl = (s.outcomeSettled x y a b).fpl ∧
    (s.endOwnWindow y a b).osc = (s.outcomeSettled x y a b).osc ∧
    (s.endOwnWindow y a b).lpt.latched.peer = (s.outcomeSettled x y a b).lpt.latched.peer := by
  obtain ⟨l, -, h⟩ := endOwnWindow_eq own y a b
  rw [h]
  refine countStreak_traffic ?_ _
  exact slot_outcomeSettled s x y a b

theorem sameElsewhere_endOwnWindow (own : s.InOwnWindow x) (y : Transmission) (a b : Level) :
    s.SameElsewhere (s.endOwnWindow y a b) := by
  obtain ⟨l, straps, h⟩ := endOwnWindow_eq own y a b
  have settled : s.SameElsewhere (s.outcomeSettled x y a b) :=
    sameElsewhere_of_settles (s := { s with fen := s.fenAtOutcome x }) (settles_settleWindow _ y _ a b)
  have ⟨_, settledStraps, _⟩ := settled
  rw [h]
  refine sameElsewhere_trans (sameElsewhere_trans settled ?_) (sameElsewhere_countStreak _ _)
  simp [State.SameElsewhere, straps, settledStraps]

/-- Without a collision the streak goes to 0 and the settlement stands as it is. -/
theorem endOwnWindow_clear (own : s.InOwnWindow x) (clear : x.collidedAt = none) (y : Transmission) (a b : Level) :
    (s.endOwnWindow y a b).rdc = { s.rdc with stage := .answered, streak := 0 } ∧
    (s.endOwnWindow y a b).lpt = (s.outcomeSettled x y a b).lpt ∧
    (s.endOwnWindow y a b).fen = s.fenAtOutcome x := by
  obtain ⟨l, -, h⟩ := endOwnWindow_eq own y a b
  obtain ⟨peers, frames, osc, peer, hu⟩ :=
    settles_settleWindow { s with fen := s.fenAtOutcome x } y x.collidedAt.isSome a b
  rw [h, clear]
  refine ⟨rfl, rfl, ?_⟩
  unfold State.outcomeSettled
  rw [hu]
  rfl

end

/-- Settles O41: the settlement of EMPTY, and the streak at every settlement. -/
theorem emptySettlementAndTheStreak : Obligations.EmptySettlementAndTheStreak := by
  intro s x y own slot streak
  refine ⟨fun empty due => ?_, fun frame stage a b => ?_⟩
  · subst empty
    refine ⟨_, emptySettlement_due own slot due, ?_⟩
    rw [settleEmpty_eq own]
    have ⟨peers, pool, queues, _⟩ := countStreak_traffic (u := s.emptySettled x) rfl x.collidedAt.isSome
    refine ⟨countStreak_streak x rfl, queues, peers, pool, countStreak_wdatDrive rfl _,
      sameElsewhere_trans ?_ (sameElsewhere_countStreak _ _), fun clear => ?_⟩
    · simp [State.SameElsewhere, State.emptySettled, State.rise]
    · simp [State.emptySettled, State.countStreak, clear]
  · refine ⟨_, outcome_due own stage slot frame a b, ?_, ?_, sameElsewhere_endOwnWindow own y a b, fun clear body => ?_⟩
    · obtain ⟨l, -, h⟩ := endOwnWindow_eq own y a b
      rw [h]
      exact countStreak_streak x rfl
    · obtain ⟨-, -, queues, -⟩ := endOwnWindow_traffic own y a b
      rw [queues, slot_outcomeSettled]
    · obtain ⟨-, -, fen⟩ := endOwnWindow_clear own clear y a b
      rw [fen]
      simp [State.fenAtOutcome, clear, body]

end Sys2Proof.Laws
end

section
/-!
SUPPORT. The outcome of a pool frame: final answers to a MESSAGE (02 R34, R35) and the outcome of a NOTICE (02 R38).
-/

namespace Sys2Proof.Laws

open Sys2Proof.Machine

section
variable {s : State} {f : FrameNo} {q : Posted} {c : Bool}

theorem outcomeSettled_message {p : Pos} (x : Tx) (was : s.frame f = .sending q c) (hp : q.peer = some p)
    (a b : Level) : s.outcomeSettled x (.frame f) a b = (s.atOutcome x).settleMessage f q c p
      (if x.collidedAt.isSome then .collided else readAnswer a b) := by
  have was : (s.atOutcome x).frame f = .sending q c := was
  unfold State.atOutcome at was
  simp only [State.outcomeSettled, State.settleWindow, was, hp]
  rfl

theorem outcomeSettled_notice (x : Tx) (was : s.frame f = .sending q c) (hp : q.peer = none) (a b : Level) :
    s.outcomeSettled x (.frame f) a b = (s.atOutcome x).complete f
      (if x.collidedAt.isSome then q.doneRecord .collided (q.attempts + 1)
       else q.doneRecord (readNotice a b) q.attempts) := by
  have was : (s.atOutcome x).frame f = .sending q c := was
  unfold State.atOutcome at was
  simp only [State.outcomeSettled, State.settleWindow, was, hp]
  split <;> rfl

/-! ## Final answers to a MESSAGE -/

theorem settleMessage_accepted {p : Pos} {o : OpenSeq} (hown : p ≠ s.own) (ho : q.openSeq = some o) :
    s.settleMessage f q c p .accepted = { s.complete f (q.doneRecord .delivered q.attempts) with
      peers := s.peers.set p { (s.peer p).settle true o.grant with held := (s.peer p).held - 1 } } := by
  simp only [State.settleMessage, ho]
  rw [updPeer_of_ne _ (by exact hown)]
  rfl

theorem settleMessage_refused {p : Pos} {o : OpenSeq} (hown : p ≠ s.own) (ho : q.openSeq = some o) :
    s.settleMessage f q c p .refused = { s.complete f (q.doneRecord .refused q.attempts) with
      peers := s.peers.set p { (s.peer p).settle false o.grant with held := 0 } } := by
  simp only [State.settleMessage, ho]
  rw [updPeer_of_ne _ (by exact hown)]
  rfl

end

/-- Settles O51: the final answers to a MESSAGE. -/
theorem finalAnswerToAMessage : Obligations.FinalAnswerToAMessage := by
  intro s x f q c p o own clear stage slot was hp hown ho e completes
  have collided : x.collidedAt.isSome = false := by simp [clear]
  have answered : ∀ (a b : Level) (outcome : Completion) (entry : PeerEntry),
      s.outcomeSettled x (.frame f) a b =
        { (s.atOutcome x).complete f (q.doneRecord outcome q.attempts) with
          peers := s.peers.set p entry } →
      ∃ t, exec (.outcome a b) s = .next t ∧ completes t outcome ∧ t.peers = s.peers.set p entry := by
    intro a b outcome entry settled
    obtain ⟨peers, pool, queues, -⟩ := endOwnWindow_traffic own (.frame f) a b
    obtain ⟨rdc, port, -⟩ := endOwnWindow_clear own clear (.frame f) a b
    rw [settled] at peers pool queues port
    exact ⟨_, outcome_due own stage slot (by simp) a b,
      ⟨pool, queues, rdc, port, sameElsewhere_endOwnWindow own _ a b⟩, peers⟩
  constructor
  · refine answered .low .high .delivered _ ?_
    rw [outcomeSettled_message x was hp, collided]
    exact settleMessage_accepted hown ho
  · refine answered .high .low .refused _ ?_
    rw [outcomeSettled_message x was hp, collided]
    exact settleMessage_refused hown ho

/-! ## The outcome of a NOTICE -/

/-- Settles O53: the outcome of a NOTICE, by the answer cells or a collision. -/
theorem outcomeOfANotice : Obligations.OutcomeOfANotice := by
  intro s x f q c own stage slot was hp completes
  have done : ∀ a b outcome attempts, (if x.collidedAt.isSome then q.doneRecord .collided (q.attempts + 1)
      else q.doneRecord (readNotice a b) q.attempts) = q.doneRecord outcome attempts →
      completes a b outcome attempts := by
    intro a b outcome attempts record
    obtain ⟨peers, pool, queues, -⟩ := endOwnWindow_traffic own (.frame f) a b
    rw [outcomeSettled_notice x was hp, record] at peers pool queues
    exact ⟨_, outcome_due own stage slot (by simp) a b, peers, pool, queues⟩
  refine ⟨fun clear => ?_, fun collided a b => ?_⟩
  · have answer : ∀ a b, completes a b (readNotice a b) q.attempts := fun a b => done a b _ _ (by simp [clear])
    exact ⟨answer .low .high, answer .low .low, answer .high .low, answer .high .high⟩
  · exact done a b .collided _ (if_pos (Option.isSome_iff_ne_none.mpr collided))

end Sys2Proof.Laws
end

section
/-!
SUPPORT. A failed attempt of a MESSAGE (02 R36, R37): its return to its queue, and the loss of its peer with the other
frames to it completed in queue order (01 R13, 05 R86).
-/

namespace Sys2Proof.Machine

/-- The record of a frame whose completion is asked while it is QUEUED (01 R13). -/
def FrameRecord.completed (r : FrameRecord) (outcome : Completion) : FrameRecord :=
  match r with
  | .queued q => .done (q.doneRecord outcome q.attempts)
  | _ => r

/-- OSC once every QUEUED frame to p has completed: the URGENT queue's first, each queue's in its order (01 R13). -/
def State.oscWithout (s : State) (p : Pos) : Osc :=
  { s.osc with
    urgent := s.osc.urgent.filter (fun g => !(s.frame g).queuedTo p)
    routine := s.osc.routine.filter (fun g => !(s.frame g).queuedTo p)
    completion := s.osc.completion ++ s.osc.urgent.filter (fun g => (s.frame g).queuedTo p) ++
      s.osc.routine.filter (fun g => (s.frame g).queuedTo p) }

end Sys2Proof.Machine

namespace Sys2Proof.Laws

open Sys2Proof.Machine

/-! ## Back to its queue -/

/-- Without the frame that entered, the queue is as it was. -/
theorem filter_insertByPost (s : State) (n : Nat) {f : FrameNo} {queue : List FrameNo} (h : f ∉ queue) :
    (s.insertByPost n f queue).filter (fun g => g ≠ f) = queue := by
  induction queue with
  | nil => simp [State.insertByPost]
  | cons g rest ih =>
    obtain ⟨hg, hrest⟩ := not_or.mp (mt List.mem_cons.mpr h)
    unfold State.insertByPost
    split
    · rw [List.filter_cons_of_pos (by simpa using Ne.symm hg), ih hrest]
    · rw [List.filter_cons_of_neg (by simp)]
      exact filter_ne_of_not_mem h

/-- A frame that was in no queue enters the one of its class. -/
theorem enqueue_queues {s : State} {f : FrameNo} (q : Posted) (out : ∀ k, f ∉ s.queueOf k) :
    f ∈ (s.enqueue f q).queueOf q.cls ∧
    ∀ k, ((s.enqueue f q).queueOf k).filter (fun g => g ≠ f) = s.queueOf k := by
  constructor
  · rw [queueOf_enqueue, if_pos rfl, mem_insertByPost]
    exact .inl rfl
  · intro k
    rw [queueOf_enqueue]
    split
    · subst k
      exact filter_insertByPost _ _ (out q.cls)
    · exact filter_ne_of_not_mem (out k)

/-! ## Every frame to a peer completes -/

theorem completeQueued_queued {s : State} {f : FrameNo} {q : Posted} (o : Completion) (was : s.frame f = .queued q) :
    s.completeQueued o f = (s.unqueue f).complete f (q.doneRecord o q.attempts) := by
  simp only [State.completeQueued, was]

theorem frame_completeQueued {s : State} {f : FrameNo} {q : Posted} (o : Completion) (was : s.frame f = .queued q)
    (g : FrameNo) : (s.completeQueued o f).frame g = if g = f then (s.frame f).completed o else s.frame g := by
  rw [completeQueued_queued o was, was]
  exact frame_setFrame (s.unqueue f) f g _

/-- QUEUED frames that complete one after the other leave their queues and join the completion queue in that order. -/
theorem foldl_completeQueued (o : Completion) (l : List FrameNo) (s : State) (nodup : l.Nodup)
    (queued : ∀ g ∈ l, ∃ q, s.frame g = .queued q) :
    let t := l.foldl (fun t f => t.completeQueued o f) s
    t.osc = { s.osc with
      urgent := s.osc.urgent.filter (fun g => g ∉ l), routine := s.osc.routine.filter (fun g => g ∉ l)
      completion := s.osc.completion ++ l } ∧
    ∀ g, t.frame g = if g ∈ l then (s.frame g).completed o else s.frame g := by
  induction l generalizing s with
  | nil => simp
  | cons f rest ih =>
    obtain ⟨hf, hrest⟩ := List.nodup_cons.mp nodup
    obtain ⟨q, was⟩ := queued f List.mem_cons_self
    have other : ∀ g ∈ rest, (s.completeQueued o f).frame g = s.frame g := fun g hg => by
      rw [frame_completeQueued o was, if_neg fun e : g = f => hf (e ▸ hg)]
    obtain ⟨queues, frames⟩ := ih (s.completeQueued o f) hrest fun g hg => by
      rw [other g hg]
      exact queued g (List.mem_cons_of_mem f hg)
    refine ⟨?_, fun g => ?_⟩
    · refine queues.trans ?_
      rw [completeQueued_queued o was]
      simp [State.complete, State.unqueue, State.setFrame, List.filter_filter, Bool.and_comm]
    · refine (frames g).trans ?_
      by_cases hg : g ∈ rest
      · simp [hg, other g hg]
      · rw [if_neg hg, frame_completeQueued o was]
        by_cases e : g = f
        · subst e
          simp
        · simp [e, hg]

theorem peers_completeAllTo (s : State) (p : Pos) (o : Completion) : (s.completeAllTo p o).peers = s.peers := by
  obtain ⟨_, _, _, _, h⟩ := completeAllTo_only s p o
  rw [h]

theorem queuedTo_iff (r : FrameRecord) (p : Pos) : r.queuedTo p = true ↔ ∃ q, r = .queued q ∧ q.peer = some p := by
  cases r <;> simp [FrameRecord.queuedTo]

theorem completeAllTo_spec {s : State} (nodup : (s.osc.urgent ++ s.osc.routine).Nodup) (p : Pos) (o : Completion) :
    (s.completeAllTo p o).osc = s.oscWithout p ∧
    ∀ g, (s.completeAllTo p o).frame g =
      if g ∈ s.osc.urgent ++ s.osc.routine ∧ (s.frame g).queuedTo p = true then (s.frame g).completed o
      else s.frame g := by
  obtain ⟨queues, frames⟩ := foldl_completeQueued o
    ((s.osc.urgent ++ s.osc.routine).filter (fun g => (s.frame g).queuedTo p)) s (nodup.filter _) fun g hg => by
      obtain ⟨q, hq, -⟩ := (queuedTo_iff _ p).mp (List.mem_filter.mp hg).2
      exact ⟨q, hq⟩
  unfold State.completeAllTo State.oscWithout
  rw [← List.filter_append]
  refine ⟨queues.trans ?_, fun g => ?_⟩
  · have keeps : ∀ l ⊆ s.osc.urgent ++ s.osc.routine,
        l.filter (fun g => g ∉ (s.osc.urgent ++ s.osc.routine).filter (fun g => (s.frame g).queuedTo p)) =
          l.filter (fun g => !(s.frame g).queuedTo p) := fun l hl => List.filter_congr fun g hg => by
      have := hl hg
      simp only [List.mem_filter, this, true_and]
      simp
    rw [keeps _ (List.subset_append_left _ _), keeps _ (List.subset_append_right _ _), List.filter_append,
      List.append_assoc]
  · rw [frames g]
    simp only [List.mem_filter]

/-! ## The loss of a peer -/

theorem queuedTo_clearCredit (r : FrameRecord) (p p' : Pos) : (r.clearCredit p).queuedTo p' = r.queuedTo p' := by
  cases r with
  | arrived i =>
    unfold FrameRecord.clearCredit
    dsimp only
    split <;> rfl
  | held i =>
    unfold FrameRecord.clearCredit
    dsimp only
    split <;> rfl
  | _ => rfl

theorem losePeer_peers {s : State} {p : Pos} (hown : p ≠ s.own) (m : Nat) (o : Completion) :
    (s.losePeer p m o).peers = s.peers.set p (PeerEntry.lost m) := by
  rw [State.losePeer, State.latchPeer, withLpt_peers, peers_completeAllTo, State.mapFrames, withFpl_peers,
    State.setPeer, if_neg hown, withPeers_peers]

theorem losePeer_latched (s : State) (p : Pos) (m : Nat) (o : Completion) :
    (s.losePeer p m o).lpt.latched.peer = true := by
  obtain ⟨_, _, _, _, _, h⟩ := losePeer_only s p m o
  rw [h]

/-- The queues and the records after the loss of p (05 R86). -/
theorem losePeer_spec {s : State} (nodup : (s.osc.urgent ++ s.osc.routine).Nodup) (p : Pos) (m : Nat)
    (o : Completion) :
    (s.losePeer p m o).osc = s.oscWithout p ∧
    ∀ g, (s.losePeer p m o).frame g =
      if g ∈ s.osc.urgent ++ s.osc.routine ∧ (s.frame g).queuedTo p = true then (s.frame g).completed o
      else (s.frame g).clearCredit p := by
  have frame : ∀ g, ((s.setPeer p (PeerEntry.lost m)).mapFrames (fun r => r.clearCredit p)).frame g =
      (s.frame g).clearCredit p := fun g => by
    rw [frame_mapFrames, setPeer_only]
    rfl
  have same : ((s.setPeer p (PeerEntry.lost m)).mapFrames (fun r => r.clearCredit p)).osc = s.osc := by
    rw [setPeer_only]
    rfl
  obtain ⟨queues, frames⟩ := completeAllTo_spec
    (s := (s.setPeer p (PeerEntry.lost m)).mapFrames (fun r => r.clearCredit p)) (by rwa [same]) p o
  simp only [State.oscWithout, same, frame, queuedTo_clearCredit] at queues frames
  refine ⟨queues, fun g => (frames g).trans ?_⟩
  split
  · rename_i h
    obtain ⟨q, hq, -⟩ := (queuedTo_iff _ p).mp h.2
    rw [hq]
    rfl
  · rfl

/-! ## The failed attempt -/

/-- No frame is twice in the outbound queues. -/
theorem nodup_queues {s : State} (placed : s.Placed) : (s.osc.urgent ++ s.osc.routine).Nodup := by
  obtain ⟨-, urgent, routine, -, -, each⟩ := placed
  refine List.nodup_append.mpr ⟨urgent, routine, fun f hf g hg e => ?_⟩
  subst e
  obtain ⟨-, inUrgent, inRoutine, -⟩ := each f
  have := (inUrgent.mp hf).symm.trans (inRoutine.mp hg)
  contradiction

/-- A QUEUED frame is in one of the outbound queues. -/
theorem mem_queues_of_queued {s : State} (placed : s.Placed) {g : FrameNo} {r : Posted} (was : s.frame g = .queued r) :
    g ∈ s.osc.urgent ++ s.osc.routine := by
  have member : g ∈ s.queueOf r.cls := (mem_queueOf_iff placed r.cls g).mpr (by rw [was, place_queued])
  cases hc : r.cls with
  | urgent =>
    rw [hc] at member
    exact List.mem_append_left _ member
  | routine =>
    rw [hc] at member
    exact List.mem_append_right _ member

/-- The frame in the slot is in no queue. -/
theorem not_mem_queueOf_of_sending {s : State} (placed : s.Placed) {f : FrameNo} {q : Posted} {c : Bool}
    (was : s.frame f = .sending q c) (k : FrameClass) : f ∉ s.queueOf k := by
  rw [mem_queueOf_iff placed, was]
  cases k <;> simp [FrameClass.place]

theorem queueOf_of_osc {s t : State} (h : t.osc = s.osc) (k : FrameClass) : t.queueOf k = s.queueOf k := by
  cases k <;> simp only [State.queueOf, h]

theorem frame_of_fpl {s t : State} (h : t.fpl = s.fpl) (f : FrameNo) : t.frame f = s.frame f := by
  rw [State.frame, State.frame, h]

/-- An answer that is not final (02 R36). -/
theorem settleMessage_failed {s : State} {f : FrameNo} {q : Posted} {c : Bool} {p : Pos} {answer : Answer}
    (failed : answer ≠ .accepted ∧ answer ≠ .refused) : s.settleMessage f q c p answer =
      if 4 ≤ q.attempts + 1 then (s.complete f (q.doneRecord .peerLost (q.attempts + 1))).losePeer p 0 .peerLost
      else if c then s.completeCancelled f q (q.attempts + 1)
      else s.enqueue f { q with attempts := q.attempts + 1 } := by
  cases answer with
  | accepted => exact absurd rfl failed.1
  | refused => exact absurd rfl failed.2
  | _ => rfl

theorem failed_answer {x : Tx} {a b : Level} (h : x.collidedAt ≠ none ∨ a = b) :
    let answer := if x.collidedAt.isSome then Answer.collided else readAnswer a b
    answer ≠ .accepted ∧ answer ≠ .refused := by
  by_cases collided : x.collidedAt = none
  · obtain rfl : a = b := h.resolve_left (not_not_intro collided)
    cases a <;> simp [collided, readAnswer]
  · simp [Option.isSome_iff_ne_none.mpr collided]

/-- A SENDING frame that completes is no frame that waits for p, before or after. -/
theorem queuedTo_complete_sending {s : State} {f : FrameNo} {q : Posted} {c : Bool} (was : s.frame f = .sending q c)
    (d : DoneRecord) (p : Pos) (g : FrameNo) : ((s.complete f d).frame g).queuedTo p = (s.frame g).queuedTo p := by
  have frame : (s.complete f d).frame g = if g = f then .done d else s.frame g := frame_setFrame s f g _
  rw [frame]
  split
  · subst g
    rw [was]
    rfl
  · rfl

/-- The frame in the slot completes and its peer is lost: the other frames to the peer follow it (02 R37, 01 R13). -/
theorem completeLost_spec {s : State} (nodup : (s.osc.urgent ++ s.osc.routine).Nodup) {f : FrameNo} {q : Posted}
    {c : Bool} (was : s.frame f = .sending q c) (d : DoneRecord) (p : Pos) (m : Nat) (o : Completion) :
    let t := (s.complete f d).losePeer p m o
    t.osc = { s.osc with
      urgent := s.osc.urgent.filter (fun g => !(s.frame g).queuedTo p)
      routine := s.osc.routine.filter (fun g => !(s.frame g).queuedTo p)
      completion := s.osc.completion ++ [f] ++ s.osc.urgent.filter (fun g => (s.frame g).queuedTo p) ++
        s.osc.routine.filter (fun g => (s.frame g).queuedTo p) } ∧
    t.frame f = .done d ∧
    ∀ g r, g ∈ s.osc.urgent ++ s.osc.routine → s.frame g = .queued r → r.peer = some p →
      t.frame g = .done (r.doneRecord o r.attempts) := by
  obtain ⟨queues, frames⟩ := losePeer_spec (s := s.complete f d) nodup p m o
  simp only [State.oscWithout, queuedTo_complete_sending was d p] at queues frames
  have frame : ∀ g, (s.complete f d).frame g = if g = f then .done d else s.frame g :=
    fun g => frame_setFrame s f g _
  refine ⟨queues, ?_, fun g r member waiting names => ?_⟩
  · rw [frames, frame, if_pos rfl, was, if_neg (by simp [FrameRecord.queuedTo])]
    rfl
  · have other : g ≠ f := fun e => by simp [e, was] at waiting
    have waits : (s.frame g).queuedTo p = true := (queuedTo_iff _ p).mpr ⟨r, waiting, names⟩
    rw [frames, if_pos ⟨member, waits⟩, frame, if_neg other, waiting]
    rfl

/-- Settles O52: a failed attempt of a MESSAGE, by its attempts and its cancel request. -/
theorem failedAttemptOfAMessage : Obligations.FailedAttemptOfAMessage := by
  intro s x f q c p a b own failed stage slot was hp hown placed n lost
  have next := outcome_due own stage slot (by simp) a b
  obtain ⟨peers, pool, queues, event⟩ := endOwnWindow_traffic own (.frame f) a b
  have settled := outcomeSettled_message x was hp a b
  rw [settleMessage_failed (failed_answer failed)] at settled
  refine ⟨fun below keep => ?_, fun below cancel => ?_, fun last => ?_⟩
  · rw [if_neg (not_le.mpr below), keep, if_neg (by simp)] at settled
    obtain ⟨entered, same⟩ := enqueue_queues (s := s.atOutcome x) { q with attempts := n }
      (not_mem_queueOf_of_sending placed was)
    obtain ⟨completion, empty, -⟩ := enqueue_keeps (s.atOutcome x) f { q with attempts := n }
    rw [settled] at queues
    rw [settled, enqueue_only] at peers pool
    refine ⟨_, next, peers, pool, ?_, fun k => ?_, by rw [queues]; exact completion, by rw [queues]; exact empty⟩
    · rw [queueOf_of_osc queues]
      exact entered
    · rw [queueOf_of_osc queues]
      exact same k
  · have peer : ∀ r, q.peer = some r → r ≠ s.own := fun r hr => Option.some.inj (hp.symm.trans hr) ▸ hown
    rw [if_neg (not_le.mpr below), cancel, if_pos rfl, completeCancelled_eq _ (by exact peer)] at settled
    rw [settled] at peers pool queues
    exact ⟨_, next, peers, pool, queues⟩
  · rw [if_pos last] at settled
    obtain ⟨lostQueues, done, others⟩ := completeLost_spec (s := s.atOutcome x) (nodup_queues (s := s) placed) was
      (q.doneRecord .peerLost n) p 0 .peerLost
    rw [settled] at peers pool queues event
    refine ⟨_, next, peers.trans ?_, (frame_of_fpl pool f).trans done, event.trans (losePeer_latched _ p 0 _),
      fun g r waiting names => (frame_of_fpl pool g).trans ?_, queues.trans lostQueues⟩
    · exact losePeer_peers (s := (s.atOutcome x).complete f (q.doneRecord .peerLost n)) hown 0 .peerLost
    · exact others g r (mem_queues_of_queued placed waiting) waiting names

end Sys2Proof.Laws
end

section
/-!
SUPPORT. A header sent is read back GOOD with its fields (07 R122 to R124): each byte gives its fields again, the check
agrees, and no legal header is EMPTY.
-/

namespace Sys2Proof.Laws

open Sys2Proof.Machine

/-! ## Fields of a byte -/

theorem kindOf_kindCode (k : Kind) : kindOf (kindCode k) = some k := by cases k <;> rfl

theorem kindCode_le (k : Kind) : kindCode k ≤ 2 := by cases k <;> decide

theorem classBit_le (c : FrameClass) : classBit c ≤ 1 := by cases c <;> decide

theorem classOf_classBit (c : FrameClass) : classOf (decide (classBit c = 1)) = c := by cases c <;> rfl

theorem wordOf_bytesOf16 (w : BitVec 16) : wordOf (w.extractLsb' 8 8) (w.extractLsb' 0 8) = w :=
  BitVec.extractLsb'_append_extractLsb' (w := 8) (len := 8)

theorem legalFields_bounds {h : HeaderFields} (legal : legalFields h = true) : h.grant ≤ 4 ∧ h.length ≤ 56 := by
  simp only [legalFields, Bool.and_eq_true, decide_eq_true_eq] at legal
  exact legal.1

/-- The second byte of a header: kind, class and sequence. -/
theorem headerByte_one (h : HeaderFields) :
    (BitVec.ofNat 8 (64 * kindCode h.kind + 32 * classBit h.cls + 4 * h.seq.val)).toNat =
      64 * kindCode h.kind + 32 * classBit h.cls + 4 * h.seq.val := by
  have := kindCode_le h.kind
  have := classBit_le h.cls
  have := h.seq.isLt
  simp only [BitVec.toNat_ofNat]
  omega

theorem fin_ofNat_eq {n : Nat} [NeZero n] {k : Nat} {x : Fin n} (h : k % n = x.val) : Fin.ofNat n k = x := Fin.ext h

/-- The six bytes of a legal header give its fields again (11 Table 11-1). -/
theorem headerFields_headerBody {h : HeaderFields} (legal : legalFields h = true) :
    headerFields (BitVec.ofNat 8 (16 * h.source.val + h.dest.val))
      (BitVec.ofNat 8 (64 * kindCode h.kind + 32 * classBit h.cls + 4 * h.seq.val)) (BitVec.ofNat 8 (32 * h.grant))
      (BitVec.ofNat 8 h.length) (h.tag.extractLsb' 8 8) (h.tag.extractLsb' 0 8) = some h := by
  obtain ⟨grant, length⟩ := legalFields_bounds legal
  have source := h.source.isLt
  have dest := h.dest.isLt
  have seq := h.seq.isLt
  have cls := classBit_le h.cls
  have b0 : (BitVec.ofNat 8 (16 * h.source.val + h.dest.val)).toNat = 16 * h.source.val + h.dest.val := by
    simp only [BitVec.toNat_ofNat]
    omega
  have b1 := headerByte_one h
  have b2 : (BitVec.ofNat 8 (32 * h.grant)).toNat = 32 * h.grant := by
    simp only [BitVec.toNat_ofNat]
    omega
  have b3 : (BitVec.ofNat 8 h.length).toNat = h.length := by
    simp only [BitVec.toNat_ofNat]
    omega
  have kind : (64 * kindCode h.kind + 32 * classBit h.cls + 4 * h.seq.val) / 64 = kindCode h.kind := by omega
  have urgent : (BitVec.ofNat 8 (64 * kindCode h.kind + 32 * classBit h.cls + 4 * h.seq.val)).getLsbD 5 =
      decide (classBit h.cls = 1) := by
    rw [BitVec.getLsbD, b1, Nat.testBit_eq_decide_div_mod_eq, decide_eq_decide]
    omega
  have fields : ({ source := Fin.ofNat 16 ((16 * h.source.val + h.dest.val) / 16)
                   dest := Fin.ofNat 16 (16 * h.source.val + h.dest.val), kind := h.kind
                   cls := classOf (decide (classBit h.cls = 1))
                   seq := Fin.ofNat 8 ((64 * kindCode h.kind + 32 * classBit h.cls + 4 * h.seq.val) / 4)
                   grant := 32 * h.grant / 32, length := h.length
                   tag := wordOf (h.tag.extractLsb' 8 8) (h.tag.extractLsb' 0 8) } : HeaderFields) = h := by
    rw [fin_ofNat_eq (x := h.source) (by omega), fin_ofNat_eq (x := h.dest) (by omega),
      fin_ofNat_eq (x := h.seq) (by omega), classOf_classBit, wordOf_bytesOf16, Nat.mul_div_cancel_left _ (by decide)]
  unfold headerFields
  rw [if_pos (by omega), b1, kind, kindOf_kindCode]
  dsimp only
  rw [urgent, b0, b2, b3, fields, if_pos legal]

/-- A header sent by its rules is read GOOD, with the fields sent (07 R124). -/
theorem readHeader_encodeHeader {h : HeaderFields} (legal : legalFields h = true) :
    readHeader (encodeHeader h) = (.good, some h) := by
  have notEmpty : encodeHeader h ≠ emptyHeader := by
    intro e
    have byte : BitVec.ofNat 8 (64 * kindCode h.kind + 32 * classBit h.cls + 4 * h.seq.val) = (0xFF : Byte) :=
      Option.some.inj (congrArg (fun l : List Byte => l[1]?) e)
    have := headerByte_one h
    rw [byte] at this
    simp at this
    omega
  have body := headerFields_headerBody legal
  unfold readHeader
  rw [if_neg notEmpty]
  simp only [encodeHeader, headerBody, bytesOf16, List.cons_append, List.nil_append, body, if_true]

end Sys2Proof.Laws
end

section
/-!
SUPPORT. The withdrawal of the transmission in the slot (02 R40, 01 R11), by what the slot holds, and the ways by which
a station leaves the round: each withdraws once, from the slot as the round left it.
-/

namespace Sys2Proof.Machine

/-- What a withdrawal reads is as before: cells, counts, the staging buffer and latched events alone have gone on. -/
structure State.GoneOn (s u : State) : Prop where
  straps : u.lif.straps = s.lif.straps
  tx : u.fen.tx = s.fen.tx
  osc : u.osc = s.osc
  peers : u.peers = s.peers
  fpl : u.fpl = s.fpl

/-- t has the entries, records and queues that a withdrawal leaves of u. -/
def State.WithdrawnTo (u t : State) : Prop :=
  t.peers = u.withdraw.peers ∧ t.fpl = u.withdraw.fpl ∧ t.osc = u.withdraw.osc

end Sys2Proof.Machine

namespace Sys2Proof.Laws

open Sys2Proof.Machine

section
variable {s : State}

/-! ## The withdrawal, by what the slot holds -/

theorem withdraw_frame {f : FrameNo} {q : Posted} {c : Bool} (slot : s.osc.slot = some (.frame f))
    (was : s.frame f = .sending q c) : s.withdraw =
      if 4 ≤ q.attempts + 1 then (s.setSlot none).complete f (q.doneRecord .peerLost (q.attempts + 1))
      else if c then (s.setSlot none).completeCancelled f q (q.attempts + 1)
      else (s.setSlot none).enqueue f { q with attempts := q.attempts + 1 } := by
  have was : (s.setSlot none).frame f = .sending q c := was
  simp only [State.withdraw, slot, was]
  rfl

/-- No record but that of the frame in the slot changes. -/
theorem frames_withdraw {f : FrameNo} {q : Posted} {c : Bool} (slot : s.osc.slot = some (.frame f))
    (was : s.frame f = .sending q c) : ∃ r, s.withdraw.fpl.frames = s.fpl.frames.set f r := by
  rw [withdraw_frame slot was]
  split
  · exact ⟨_, rfl⟩
  · split
    · rw [completeCancelled_only]
      exact ⟨_, rfl⟩
    · exact ⟨_, frames_enqueue _ _ _⟩

/-- A new credit frame that was built forms the open credit frame (04 R76). -/
theorem withdraw_newCredit {p : Pos} {o : OpenSeq} (slot : s.osc.slot = some (.newCredit p (some o)))
    (hown : p ≠ s.own) : s.withdraw = { s.setSlot none with
      peers := s.peers.set p
        { s.peer p with openCredit := some { seq := o.seq, grant := o.grant, attempts := 1 } } } := by
  simp only [State.withdraw, slot]
  exact updPeer_of_ne (s := s.setSlot none) _ hown

/-- A retry whose window had started has its attempts raised, or is closed. -/
theorem withdraw_retry {p : Pos} {o : OpenCredit} (slot : s.osc.slot = some (.creditRetry p)) (hown : p ≠ s.own)
    (credit : (s.peer p).openCredit = some o) (started : s.fen.tx.isSome = true) : s.withdraw = { s.setSlot none with
      peers := if 4 ≤ o.attempts + 1 then s.peers.set p { (s.peer p).settle false o.grant with openCredit := none }
        else s.peers.set p { s.peer p with openCredit := some { o with attempts := o.attempts + 1 } } } := by
  have credit : ((s.setSlot none).peer p).openCredit = some o := credit
  simp only [State.withdraw, slot, credit, started, Bool.not_true, Bool.false_eq_true, if_false]
  by_cases last : 4 ≤ o.attempts + 1
  · rw [if_pos last, if_pos (show Config.maxAttempts ≤ _ from last)]
    exact updPeer_of_ne (s := s.setSlot none) _ hown
  · rw [if_neg last, if_neg (show ¬ Config.maxAttempts ≤ _ from last)]
    exact updPeer_of_ne (s := s.setSlot none) _ hown

/-- A retry whose window had not started is left as it was (log 16). -/
theorem withdraw_retry_unstarted {p : Pos} (slot : s.osc.slot = some (.creditRetry p)) (unstarted : s.fen.tx = none) :
    s.withdraw = s.setSlot none := by
  simp only [State.withdraw, slot, unstarted, Option.isSome_none, Bool.not_false, if_true]
  split <;> rfl

/-- EMPTY, a new credit frame that was not built, and an empty slot leave nothing. -/
theorem withdraw_nothing (slot : s.osc.slot = none ∨ s.osc.slot = some .empty ∨
    ∃ p, s.osc.slot = some (.newCredit p none)) : s.withdraw = s.setSlot none := by
  rcases slot with slot | slot | ⟨p, slot⟩ <;> simp only [State.withdraw, slot]

/-! ## The ways out of the round -/

theorem withdrawnTo_leaveRound (s : State) (entered : Participation) : s.WithdrawnTo (s.leaveRound entered) :=
  leaveRound_traffic s entered

theorem withdrawnTo_enterFault (s : State) : s.WithdrawnTo s.enterFault := leaveRound_traffic s .fault

/-- A stuck line found on the way to LISTENING withdraws a second time, from the slot emptied before. -/
theorem withdrawnTo_enterListening (s : State) : s.WithdrawnTo s.enterListening := by
  have empty : ((s.leaveRound .listening).restartIdle).osc.slot = none := slot_withdraw s
  unfold State.enterListening
  dsimp only
  split
  · obtain ⟨peers, pool, queues⟩ := withdrawnTo_enterFault (s.leaveRound .listening).restartIdle
    rw [withdraw_none empty] at peers pool queues
    exact ⟨peers, pool, queues⟩
  · exact leaveRound_traffic s .listening

theorem goneOn_refl (s : State) : s.GoneOn s := ⟨rfl, rfl, rfl, rfl, rfl⟩

theorem goneOn_holdLow (s : State) (wire : Wire) : s.GoneOn (s.holdLow wire) := by
  cases wire <;> exact ⟨rfl, rfl, rfl, rfl, rfl⟩

/-- A station that reads the line leaves the round for FAULT when the line is stuck (06 R107). -/
theorem takeStuck_of_readsLine (h : s.readsLine = true) : s.takeStuck = s.enterFault := by
  unfold State.readsLine at h
  unfold State.takeStuck
  cases hp : s.rdc.participation <;> simp [hp] at h ⊢

theorem stuckLine_withdraws {t : State} {wire : Wire} (hr : s.resetAsserted = false) (reads : s.readsLine = true)
    (h : exec (.stuckLine wire) s = .next t) : ∃ u, s.GoneOn u ∧ u.WithdrawnTo t := by
  have due : exec (.stuckLine wire) s = .next (s.holdLow wire).takeStuck := whenDue_due hr rfl
  obtain rfl : (s.holdLow wire).takeStuck = t := Host.Outcome.next.inj (due.symm.trans h)
  have reads : (s.holdLow wire).readsLine = true := by cases wire <;> exact reads
  rw [takeStuck_of_readsLine reads]
  exact ⟨_, goneOn_holdLow s wire, withdrawnTo_enterFault _⟩

/-- A GOOD header from another source is a sync loss (07 R132). -/
theorem endHeader_foreign {bytes : List Byte} {h : HeaderFields} (foreign : s.AtForeignHeader bytes h) :
    ∃ u, s.GoneOn u ∧ s.endHeader bytes = u.enterListening := by
  obtain ⟨-, -, -, ⟨owner, howner, source⟩, -, legal, read⟩ := foreign
  have other : ¬ some h.source = s.windowOwner := fun e => source (Option.some.inj (e.trans howner))
  unfold State.endHeader
  simp only [read, readHeader_encodeHeader legal, if_neg other, State.syncLoss]
  refine ⟨_, ?_, rfl⟩
  exact ⟨rfl, rfl, rfl, rfl, rfl⟩

theorem foreignHeader_withdraws {t : State} {bytes : List Byte} {h : HeaderFields}
    (foreign : s.AtForeignHeader bytes h) (next : exec (.headerEnd bytes) s = .next t) :
    ∃ u, s.GoneOn u ∧ u.WithdrawnTo t := by
  obtain ⟨u, gone, left⟩ := endHeader_foreign foreign
  obtain ⟨hr, reads, stage, ⟨owner, howner, -⟩, own, -, -⟩ := foreign
  have due : s.readsHeader = true := by
    rcases own with own | own <;> simp [State.readsHeader, reads, stage, howner, own]
  have due : exec (.headerEnd bytes) s = .next (s.endHeader bytes) := whenDue_due hr due
  obtain rfl : s.endHeader bytes = t := Host.Outcome.next.inj (due.symm.trans next)
  exact ⟨u, gone, left ▸ withdrawnTo_enterListening u⟩

end

/-- Settles O24: every way out of the round withdraws, by what the slot holds. -/
theorem withdrawalSettlesTheSlot : Obligations.WithdrawalSettlesTheSlot := by
  intro s t hr reads ways
  obtain ⟨u, gone, peers, pool, queues⟩ : ∃ u, s.GoneOn u ∧ u.WithdrawnTo t := by
    rcases ways with ⟨wire, next⟩ | ⟨bytes, h, foreign, next⟩ | ⟨entered, rfl⟩
    · exact stuckLine_withdraws hr reads next
    · exact foreignHeader_withdraws foreign next
    · exact ⟨s, goneOn_refl s, withdrawnTo_leaveRound s entered⟩
  have own : u.own = s.own := congrArg Straps.pos gone.straps
  have peer : ∀ p, s.peer p = u.peer p := fun p => by rw [State.peer, State.peer, gone.peers]
  have frame : ∀ f, s.frame f = u.frame f := fun f => (frame_of_fpl gone.fpl f).symm
  simp only [← gone.tx, ← gone.osc, ← gone.peers, ← gone.fpl, ← own, peer, frame]
  refine ⟨fun f q c slot was hown => ?_, fun p slot => ?_, fun p o hown slot => ?_,
    fun p o hown slot credit started => ?_, fun p slot unstarted => ?_, fun slot => ?_⟩
  · have left := withdraw_frame slot was
    refine ⟨fun last => ?_, fun below keep => ?_, fun below cancel => ?_, fun g other => ?_⟩
    · rw [left, if_pos last] at peers pool queues
      exact ⟨frame_of_set_same (congrArg Fpl.frames pool), congrArg Osc.completion queues, peers⟩
    · rw [left, if_neg (not_le.mpr below), keep, if_neg (by simp)] at peers pool queues
      obtain ⟨completion, -⟩ := enqueue_keeps (u.setSlot none) f { q with attempts := q.attempts + 1 }
      refine ⟨frame_of_set_same ((congrArg Fpl.frames pool).trans (frames_enqueue _ _ _)), ?_,
        (congrArg Osc.completion queues).trans completion, ?_⟩
      · rw [queueOf_of_osc queues, queueOf_enqueue, if_pos rfl, mem_insertByPost]
        exact .inl rfl
      · rw [peers, enqueue_only]
        rfl
    · rw [left, if_neg (not_le.mpr below), cancel, if_pos rfl, completeCancelled_eq _ (by exact hown)]
        at peers pool queues
      exact ⟨frame_of_set_same (congrArg Fpl.frames pool), congrArg Osc.completion queues, peers⟩
    · obtain ⟨r, frames⟩ := frames_withdraw slot was
      exact frame_of_set_other ((congrArg Fpl.frames pool).trans frames) other
  · rw [withdraw_nothing (.inr (.inr ⟨p, slot⟩))] at peers pool
    exact ⟨peers, pool⟩
  · rw [withdraw_newCredit slot hown] at peers pool
    exact ⟨pool, peers⟩
  · rw [withdraw_retry slot hown credit started] at peers pool
    exact ⟨pool, peers⟩
  · rw [withdraw_retry_unstarted slot unstarted] at peers pool
    exact ⟨pool, peers⟩
  · rw [withdraw_nothing (slot.elim (.inr ∘ .inl) .inl)] at peers pool
    exact ⟨pool, peers⟩

end Sys2Proof.Laws
end

section
/-!
SUPPORT. What an accepted frame leaves of the station (03 R53, R56 to R58): the pool and frame memory after accept (01
R15), the entry of its source, the counts of the pool.
-/

namespace Sys2Proof.Machine

/-- p's entry after a grant of k was received from it (04 R71). -/
def PeerEntry.granting (e : PeerEntry) (k c0 : Nat) : PeerEntry := { e with held := min (e.held + k) c0 }

/-- The Local Port after a grant of k was received with `held` held: an excess is latched (04 R71). -/
def State.lptGranting (s : State) (held k : Nat) : Lpt :=
  { s.lpt with latched := { s.lpt.latched with excess := s.lpt.latched.excess || decide (s.c0 < held + k) } }

end Sys2Proof.Machine

namespace Sys2Proof.Laws

open Sys2Proof.Machine

section
variable {s t : State} {g : FrameNo} {rest : List FrameNo} {h : HeaderFields} {payload : List Byte}

/-! ## The stored image -/

/-- The inbound descriptor, byte by byte (11 Table 11-3). -/
theorem storedImage_descriptor (h : HeaderFields) (payload : List Byte) {i : Nat} (hi : i < 8) :
    (storedImage h payload)[i]? = some (h.descriptorByte i) := by
  have kind : (BitVec.ofNat 8 (128 * (if h.kind = .notice then 1 else 0) + 64 * classBit h.cls) : Byte) =
      (if h.kind = .notice then 0x80 else 0) ||| (if h.cls = .urgent then 0x40 else 0) := by
    cases h.kind <;> cases h.cls <;> rfl
  have high : h.tag.extractLsb' 8 8 = (h.tag >>> 8).setWidth 8 := (BitVec.setWidth_ushiftRight_eq_extractLsb).symm
  have low : h.tag.extractLsb' 0 8 = h.tag.setWidth 8 := (BitVec.setWidth_eq_extractLsb' (by decide)).symm
  unfold storedImage inboundDescriptor bytesOf16
  rw [kind, high, low]
  interval_cases i <;> rfl

/-- The payload bytes, then zeros (03 R58). -/
theorem storedImage_payload (h : HeaderFields) (payload : List Byte) {i : Nat} (hi : i < 56) :
    (storedImage h payload)[8 + i]? = some (if i < h.length then payload.getD i 0xFF else 0) := by
  unfold storedImage
  rw [List.getElem?_append_right (by simp [inboundDescriptor, bytesOf16])]
  simp [inboundDescriptor, bytesOf16, Config.maxLength, hi]

/-- Of the payload the image holds the bytes of the frame alone. -/
theorem storedImage_lineBytes (h : HeaderFields) (payload : List Byte) :
    storedImage h (lineBytes h.length payload) = storedImage h payload := by
  unfold storedImage
  refine congrArg (inboundDescriptor h ++ ·) (List.map_congr_left fun i _ => ?_)
  split
  · rename_i hi
    simp [lineBytes, hi]
  · rfl

/-! ## Accept -/

theorem accept_eq (head : s.fpl.freeList = g :: rest) : s.accept h payload = { s with
    fpl := { s.fpl with
      frames := s.fpl.frames.set g (.arrived
        { cls := h.cls, peer := if h.kind = .notice then none else some h.source, creditBearing := h.kind != .notice })
      freeList := rest
      mem := Memory.writeBytes s.fpl.mem (frameBase g) (storedImage h payload) }
    ibu := { inbound := s.ibu.inbound ++ [g] } } := by
  simp only [State.accept, head, beq_iff_eq]
  rfl

theorem accept_lineBytes (s : State) (h : HeaderFields) (payload : List Byte) :
    s.accept h (lineBytes h.length payload) = s.accept h payload := by
  simp only [State.accept, storedImage_lineBytes]

/-- Accept leaves entries, port, queues and Wake Unit. -/
theorem accept_keeps (s : State) (h : HeaderFields) (payload : List Byte) :
    (s.accept h payload).peers = s.peers ∧ (s.accept h payload).lpt = s.lpt ∧ (s.accept h payload).wku = s.wku ∧
    (s.accept h payload).lif = s.lif := by
  obtain ⟨_, _, _, _, only⟩ := accept_only s h payload
  rw [only]
  exact ⟨rfl, rfl, rfl, rfl⟩

/-- A byte of frame memory after accept: of the image in the accepted frame, as it was elsewhere. -/
theorem memByte_accept (head : s.fpl.freeList = g :: rest) (a : Nat) : (s.accept h payload).memByte a =
    if 64 * g.val ≤ a ∧ a < 64 * g.val + 64 then ((storedImage h payload)[a - 64 * g.val]?).getD
      (Config.undefinedByte s.fpl.memEpoch a) else s.memByte a := by
  have length : (storedImage h payload).length = 64 := storedImage_length h payload
  rw [accept_eq head]
  simp only [State.memByte, read_writeBytes, length]
  change Option.getD (if 64 * g.val ≤ a ∧ a < 64 * g.val + 64 then _ else _) _ = _
  split <;> rfl

/-- Accept stores the frame (01 R15, 03 R58). -/
theorem stored_accept (head : s.fpl.freeList = g :: rest) : s.Stored (s.accept h payload) g h payload := by
  refine ⟨?_, ?_, ?_, fun i hi => ?_, fun i hi => ?_, fun a outside => ?_⟩
  · rw [accept_eq head]
    exact head
  · rw [accept_eq head]
  · rw [accept_eq head]
  · rw [memByte_accept head, if_pos (by omega), Nat.add_sub_cancel_left, storedImage_descriptor h payload hi]
    rfl
  · rw [memByte_accept head, if_pos (by omega), Nat.add_assoc, Nat.add_sub_cancel_left,
      storedImage_payload h payload hi]
    rfl
  · rw [memByte_accept head, if_neg (by omega)]

/-- What is stored shows in the pool and the inbound queue alone. -/
theorem stored_congr {s' t' : State} (stored : s.Stored t g h payload) (hs : s'.fpl = s.fpl ∧ s'.ibu = s.ibu)
    (ht : t'.fpl = t.fpl ∧ t'.ibu = t.ibu) : s'.Stored t' g h payload := by
  simpa only [State.Stored, State.memByte, hs, ht] using stored

theorem freeCount_of_stored (stored : s.Stored t g h payload) : t.freeCount + 1 = s.freeCount := by
  obtain ⟨head, -⟩ := stored
  simp [State.freeCount, head]

/-! ## Received grants and the Wake Unit -/

theorem applyGrant_eq {p : Pos} (k : Nat) (hown : p ≠ s.own) : s.applyGrant p k = { s with
    peers := s.peers.set p ((s.peer p).granting k s.c0), lpt := s.lptGranting (s.peer p).held k } := by
  unfold State.applyGrant State.lptGranting
  dsimp only
  rw [updPeer_of_ne _ hown]
  split
  · rename_i excess
    simp only [State.latchExcess, excess, decide_true, Bool.or_true]
    rfl
  · rename_i within
    simp only [within, decide_false, Bool.or_false]
    rfl

/-- A grant that comes with another change of its sender's entry. -/
theorem updPeer_applyGrant {p : Pos} {e : PeerEntry → PeerEntry} (k : Nat) (hown : p ≠ s.own)
    (held : (e (s.peer p)).held = (s.peer p).held) : (s.updPeer p e).applyGrant p k = { s with
      peers := s.peers.set p ((e (s.peer p)).granting k s.c0), lpt := s.lptGranting (s.peer p).held k } := by
  have entry : (s.updPeer p e).peer p = e (s.peer p) := by
    rw [State.updPeer, peer_setPeer, if_neg hown, if_pos rfl]
  have own : (s.updPeer p e).own = s.own := by rw [updPeer_only]; rfl
  rw [applyGrant_eq k (own ▸ hown), entry, held, updPeer_of_ne _ hown]
  simp only [Vector.set_set]
  rfl

/-- What the Wake Unit makes of a frame depends on the Wake Unit alone. -/
theorem presentToWake_of (same : t.wku = s.wku) :
    t.presentToWake h = { t with wku := (s.presentToWake h).wku } := by
  unfold State.presentToWake State.wakeEntry
  rw [same]
  split
  · rfl
  · rw [← same]

/-! ## The effects of a decision -/

/-- A MESSAGE accepted by test 4 (03 R53). -/
theorem storeMessage_eq (hown : h.source ≠ s.own) : s.storeMessage h payload = { s.accept h payload with
    peers := s.peers.set h.source
      (({ s.peer h.source with granted := (s.peer h.source).granted - 1, lastAccepted := some h.seq } :
        PeerEntry).granting h.grant s.c0)
    lpt := s.lptGranting (s.peer h.source).held h.grant, wku := (s.presentToWake h).wku } := by
  obtain ⟨peers, lpt, wku, lif⟩ := accept_keeps s h payload
  have peer : (s.accept h payload).peer h.source = s.peer h.source := by rw [State.peer, peers]; rfl
  have c0 : (s.accept h payload).c0 = s.c0 := by rw [State.c0, lif]; rfl
  have own : (s.accept h payload).own = s.own := by rw [State.own, lif]; rfl
  unfold State.storeMessage
  rw [updPeer_applyGrant _ (own ▸ hown) rfl, peer, peers, State.lptGranting, lpt, c0]
  exact presentToWake_of wku

/-- A CREDIT accepted by test 3 (03 R56). -/
theorem takeCredit_eq (hown : h.source ≠ s.own) : s.takeCredit h = { s with
    peers := s.peers.set h.source
      (({ s.peer h.source with lastAccepted := some h.seq } : PeerEntry).granting h.grant s.c0)
    lpt := s.lptGranting (s.peer h.source).held h.grant } :=
  updPeer_applyGrant _ hown rfl

/-- A stored NOTICE (03 R57). -/
theorem storeNotice_eq (s : State) (h : HeaderFields) (payload : List Byte) :
    s.storeNotice h payload = { s.accept h payload with wku := (s.presentToWake h).wku } := by
  obtain ⟨-, -, wku, -⟩ := accept_keeps s h payload
  exact presentToWake_of wku

/-! ## Spare -/

/-- The entries of a state whose entry of p alone was set. -/
theorem peer_of_set {p : Pos} {e : PeerEntry} (peers : t.peers = s.peers.set p e) (r : Pos) :
    t.peer r = if r = p then e else s.peer r := by
  by_cases hr : r = p
  · subst hr
    simp [State.peer, peers]
  · have hv : p.val ≠ r.val := fun hv => hr (Fin.ext hv.symm)
    simp [State.peer, peers, hr, hv]

/-- A credit of p that is used leaves the reserve (01 R6). -/
theorem reserve_of_granted_used {p : Pos} {e : PeerEntry} (peers : t.peers = s.peers.set p e)
    (granted : e.granted + 1 = (s.peer p).granted) (pending : e.pending = (s.peer p).pending) :
    t.reserve + 1 = s.reserve := by
  have entry : ∀ r, (s.peer r).granted + (s.peer r).pending =
      (t.peer r).granted + (t.peer r).pending + if r = p then 1 else 0 := by
    intro r
    rw [peer_of_set peers]
    split
    · subst r
      omega
    · rfl
  simp only [State.reserve, entry, ← Fin.sum_univ_def, Finset.sum_add_distrib]
  simp

end

end Sys2Proof.Laws
end

section
/-!
SUPPORT. The frame check of another owner's window (03 R49 to R58): the state it fixes, the decision with its effects in
the same act, and the decisions that have none.
-/

namespace Sys2Proof.Machine

/-- The frame check agrees, as the station computes it (07 R125). -/
def State.checkGood (s : State) (h : HeaderFields) (payload : List Byte) (check : BitVec 16) : Bool :=
  crc16 (s.fen.staging.header ++ lineBytes h.length payload) == check

/-- The station at the last frame-check cell, its check state fixed and its decision made, before the effects (03 R51). -/
def State.checked (s : State) (h : HeaderFields) (payload : List Byte) (check : BitVec 16) : State :=
  { s with
    lif := (s.rise s.clocks false (levelOf (check.getLsbD 0))).lif
    rdc := { s.rdc with stage := .judged }
    fen := { s.fen with
      staging := { s.fen.staging with
        payload := lineBytes h.length payload
        checkState := some (if s.checkGood h payload check then .good else .failed) }
      decision := if s.judges then some (s.decideFrame h (s.checkGood h payload check)) else none } }

/-- The decision has an effect on pool or entries (03 R53, R56, R57). -/
def State.takesEffect (s : State) (h : HeaderFields) (good : Bool) : Bool :=
  good && match h.kind with
    | .message => s.addressedHere h && s.storesMessage h
    | .credit => s.addressedHere h && s.takesCredit h
    | .notice => s.decideNotice h == .accept

/-- The station decides d on the frame, and nothing else. -/
def State.OnlyDecides (s : State) (h : HeaderFields) (good : Bool) (d : Decision) : Prop :=
  s.decideFrame h good = d ∧ s.takesEffect h good = false

end Sys2Proof.Machine

namespace Sys2Proof.Laws

open Sys2Proof.Machine

section
variable {s : State} {h : HeaderFields} {payload : List Byte} {check : BitVec 16}

theorem checkGood_iff : s.checkGood h payload check = true ↔ s.checkPasses h payload check := beq_iff_eq

theorem checkGood_eq_false_iff : s.checkGood h payload check = false ↔ ¬ s.checkPasses h payload check := by
  rw [← checkGood_iff, Bool.not_eq_true]

/-! ## What the checked state is -/

theorem sameTraffic_checked (s : State) (h : HeaderFields) (payload : List Byte) (check : BitVec 16) :
    s.SameTraffic (s.checked h payload check) := ⟨rfl, rfl, rfl, rfl, rfl, rfl, rfl, rfl⟩

/-- The effects are those of the decision made before (03 R51). -/
theorem takesEffect_checked (good : Bool) : (s.checked h payload check).takesEffect h good = s.takesEffect h good := rfl

theorem decision_checked (judges : s.judges = true) :
    (s.checked h payload check).fen.decision = some (s.decideFrame h (s.checkGood h payload check)) := by
  simp [State.checked, judges]

/-! ## The effects of a decision -/

theorem applyDecision_of_takesEffect_false {good : Bool} (noEffect : s.takesEffect h good = false) :
    s.applyDecision h good payload = s := by
  unfold State.takesEffect at noEffect
  unfold State.applyDecision
  cases good with
  | false => rfl
  | true => cases hk : h.kind <;> simp_all

theorem applyDecision_message (kind : h.kind = .message) (effect : s.takesEffect h true = true) :
    s.applyDecision h true payload = s.storeMessage h payload := by
  simp_all [State.takesEffect, State.applyDecision]

theorem applyDecision_credit (kind : h.kind = .credit) (effect : s.takesEffect h true = true) :
    s.applyDecision h true payload = s.takeCredit h := by
  simp_all [State.takesEffect, State.applyDecision]

theorem applyDecision_notice (kind : h.kind = .notice) (effect : s.takesEffect h true = true) :
    s.applyDecision h true payload = s.storeNotice h payload := by
  simp_all [State.takesEffect, State.applyDecision]

/-! ## The frame check -/

theorem endCheck_eq (s : State) (h : HeaderFields) (payload : List Byte) (check : BitVec 16) :
    s.endCheck h payload check =
      if s.judges then (s.checked h payload check).applyDecision h (s.checkGood h payload check)
        (lineBytes h.length payload)
      else s.checked h payload check := rfl

/-- At a frame check in another owner's window the command is due, and the station ends the check. -/
theorem frameCheckEnd_next (atCheck : s.AtFrameCheck h) :
    exec (.frameCheckEnd payload check) s = .next (s.endCheck h payload check) := by
  obtain ⟨hr, reads, other, stage, fields⟩ := atCheck
  have sending : s.ownSending = false := by
    unfold State.ownSending
    split <;> simp [other]
  have awaits : s.awaitsCheck = some h := by simp [State.awaitsCheck, reads, stage, sending, fields]
  refine (whenDue_due hr (by simp [awaits])).trans ?_
  simp only [awaits]

theorem judges_eq (atCheck : s.AtFrameCheck h) : s.judges = s.drivesLine := by
  obtain ⟨-, -, other, -⟩ := atCheck
  simp [State.judges, other]

/-- The Round Controller and OSC are those of the checked state, and so is what FEN holds. -/
theorem endCheck_keeps (s : State) (h : HeaderFields) (payload : List Byte) (check : BitVec 16) :
    (s.endCheck h payload check).rdc = { s.rdc with stage := .judged } ∧
    (s.endCheck h payload check).osc = s.osc ∧
    (s.endCheck h payload check).fen = (s.checked h payload check).fen := by
  rw [endCheck_eq]
  split
  · obtain ⟨_, _, _, _, _, only⟩ := applyDecision_only (s.checked h payload check) h
      (s.checkGood h payload check) (lineBytes h.length payload)
    rw [only]
    exact ⟨rfl, rfl, rfl⟩
  · exact ⟨rfl, rfl, rfl⟩

/-- A judging station that only decides has the decision, and its traffic side as it was. -/
theorem endCheck_onlyDecides {d : Decision} (judges : s.judges = true)
    (only : s.OnlyDecides h (s.checkGood h payload check) d) :
    (s.endCheck h payload check).fen.decision = some d ∧ s.SameTraffic (s.endCheck h payload check) := by
  obtain ⟨decision, noEffect⟩ := only
  have kept := applyDecision_of_takesEffect_false (payload := lineBytes h.length payload)
    ((takesEffect_checked (payload := payload) (check := check) _).trans noEffect)
  rw [endCheck_eq, if_pos judges, kept, decision_checked judges, decision]
  exact ⟨rfl, sameTraffic_checked s h payload check⟩

/-! ## Decisions without effect (03 Table 3-2, R52, R56, R57) -/

theorem onlyDecides_elsewhere (good : Bool) (kind : h.kind ≠ .notice) (dest : h.dest ≠ s.own) :
    s.OnlyDecides h good .silent := by
  cases hk : h.kind with
  | notice => exact absurd hk kind
  | message | credit =>
    simp [State.OnlyDecides, State.decideFrame, State.takesEffect, State.addressedHere, hk, dest]

theorem onlyDecides_damaged (kind : h.kind ≠ .notice) (dest : h.dest = s.own) :
    s.OnlyDecides h false .damagedBoth := by
  cases hk : h.kind with
  | notice => exact absurd hk kind
  | message | credit => simp [State.OnlyDecides, State.decideFrame, State.takesEffect, hk, dest]

theorem onlyDecides_damagedNotice (kind : h.kind = .notice) : s.OnlyDecides h false .damagedNotice := by
  simp [State.OnlyDecides, State.decideFrame, State.takesEffect, kind]

/-- A frame of any kind from an ABSENT peer. -/
theorem onlyDecides_absent (here : h.kind = .notice ∨ h.dest = s.own)
    (absent : (s.peer h.source).present = false) : s.OnlyDecides h true .refuse := by
  cases hk : h.kind with
  | message =>
    have dest := here.resolve_left (by simp [hk])
    simp [State.OnlyDecides, State.decideFrame, State.decideMessage, State.takesEffect, State.storesMessage, hk, dest,
      absent]
  | credit =>
    have dest := here.resolve_left (by simp [hk])
    simp [State.OnlyDecides, State.decideFrame, State.decideCredit, State.takesEffect, State.takesCredit, hk, dest,
      absent]
  | notice => simp [State.OnlyDecides, State.decideFrame, State.decideNotice, State.takesEffect, hk, absent]

/-- A duplicate MESSAGE or CREDIT. -/
theorem onlyDecides_duplicate (kind : h.kind ≠ .notice) (dest : h.dest = s.own)
    (present : (s.peer h.source).present = true) (duplicate : (s.peer h.source).lastAccepted = some h.seq) :
    s.OnlyDecides h true .accept := by
  cases hk : h.kind with
  | notice => exact absurd hk kind
  | message =>
    simp [State.OnlyDecides, State.decideFrame, State.decideMessage, State.takesEffect, State.storesMessage, hk, dest,
      present, duplicate]
  | credit =>
    simp [State.OnlyDecides, State.decideFrame, State.decideCredit, State.takesEffect, State.takesCredit, hk, dest,
      present, duplicate]

/-- A MESSAGE without a credit. -/
theorem onlyDecides_noCredit (kind : h.kind = .message) (dest : h.dest = s.own)
    (present : (s.peer h.source).present = true) (new : (s.peer h.source).lastAccepted ≠ some h.seq)
    (noCredit : (s.peer h.source).granted = 0) : s.OnlyDecides h true .refuse := by
  simp [State.OnlyDecides, State.decideFrame, State.decideMessage, State.takesEffect, State.storesMessage, kind, dest,
    present, new, noCredit]

/-- A NOTICE that finds no frame spare. -/
theorem onlyDecides_noSpare (kind : h.kind = .notice) (present : (s.peer h.source).present = true)
    (noSpare : s.spare = 0) : s.OnlyDecides h true .refuse := by
  simp [State.OnlyDecides, State.decideFrame, State.decideNotice, State.takesEffect, kind, present, noSpare]

/-! ## Decisions with an effect -/

/-- A frame check that passes, with a decision that takes effect: the answer is ACCEPT. -/
theorem endCheck_takesEffect (judges : s.judges = true) (passes : s.checkPasses h payload check)
    (accepted : s.decideFrame h true = .accept) :
    (s.endCheck h payload check).fen.decision = some .accept ∧
    s.endCheck h payload check = (s.checked h payload check).applyDecision h true (lineBytes h.length payload) := by
  have good := checkGood_iff.mpr passes
  obtain ⟨-, -, fen⟩ := endCheck_keeps s h payload check
  rw [fen, decision_checked judges, endCheck_eq, if_pos judges, good, accepted]
  exact ⟨rfl, rfl⟩

/-- A MESSAGE with a credit and a new sequence is accepted and stored (03 R52 test 4, R53). -/
theorem endCheck_message (judges : s.judges = true) (passes : s.checkPasses h payload check)
    (kind : h.kind = .message) (dest : h.dest = s.own) (hown : h.source ≠ s.own)
    (present : (s.peer h.source).present = true) (new : (s.peer h.source).lastAccepted ≠ some h.seq)
    (credit : 1 ≤ (s.peer h.source).granted) :
    (s.endCheck h payload check).fen.decision = some .accept ∧
    s.endCheck h payload check = { (s.checked h payload check).accept h payload with
      peers := s.peers.set h.source
        (({ s.peer h.source with granted := (s.peer h.source).granted - 1, lastAccepted := some h.seq } :
          PeerEntry).granting h.grant s.c0)
      lpt := s.lptGranting (s.peer h.source).held h.grant, wku := (s.presentToWake h).wku } := by
  have some_credit : (s.peer h.source).granted ≠ 0 := Nat.ne_zero_of_lt credit
  have accepted : s.decideFrame h true = .accept := by
    simp [State.decideFrame, State.decideMessage, kind, dest, present, new, some_credit]
  have effect : s.takesEffect h true = true := by
    simp [State.takesEffect, State.addressedHere, State.storesMessage, kind, dest, present, new, some_credit]
  obtain ⟨decision, ended⟩ := endCheck_takesEffect judges passes accepted
  refine ⟨decision, ended.trans ?_⟩
  rw [applyDecision_message kind ((takesEffect_checked true).trans effect), storeMessage_eq (by exact hown),
    accept_lineBytes, presentToWake_of (t := s.checked h payload check) (s := s) rfl]
  rfl

/-- A new CREDIT is accepted and taken (03 R56 test 3). -/
theorem endCheck_credit (judges : s.judges = true) (passes : s.checkPasses h payload check)
    (kind : h.kind = .credit) (dest : h.dest = s.own) (hown : h.source ≠ s.own)
    (present : (s.peer h.source).present = true) (new : (s.peer h.source).lastAccepted ≠ some h.seq) :
    (s.endCheck h payload check).fen.decision = some .accept ∧
    s.endCheck h payload check = { s.checked h payload check with
      peers := s.peers.set h.source
        (({ s.peer h.source with lastAccepted := some h.seq } : PeerEntry).granting h.grant s.c0)
      lpt := s.lptGranting (s.peer h.source).held h.grant } := by
  have accepted : s.decideFrame h true = .accept := by
    simp [State.decideFrame, State.decideCredit, kind, dest, present]
  have effect : s.takesEffect h true = true := by
    simp [State.takesEffect, State.addressedHere, State.takesCredit, kind, dest, present, new]
  obtain ⟨decision, ended⟩ := endCheck_takesEffect judges passes accepted
  refine ⟨decision, ended.trans ?_⟩
  rw [applyDecision_credit kind ((takesEffect_checked true).trans effect), takeCredit_eq (by exact hown)]
  rfl

/-- A NOTICE from a PRESENT peer is accepted and stored where a frame is spare (03 R57). -/
theorem endCheck_notice (judges : s.judges = true) (passes : s.checkPasses h payload check)
    (kind : h.kind = .notice) (present : (s.peer h.source).present = true) (spare : 1 ≤ s.spare) :
    (s.endCheck h payload check).fen.decision = some .accept ∧
    s.endCheck h payload check =
      { (s.checked h payload check).accept h payload with wku := (s.presentToWake h).wku } := by
  have some_spare : s.spare ≠ 0 := Nat.ne_zero_of_lt spare
  have accepted : s.decideFrame h true = .accept := by
    simp [State.decideFrame, State.decideNotice, kind, present, some_spare]
  have effect : s.takesEffect h true = true := by
    simp [State.takesEffect, State.decideNotice, kind, present, some_spare]
  obtain ⟨decision, ended⟩ := endCheck_takesEffect judges passes accepted
  refine ⟨decision, ended.trans ?_⟩
  rw [applyDecision_notice kind ((takesEffect_checked true).trans effect), storeNotice_eq, accept_lineBytes,
    presentToWake_of (t := s.checked h payload check) (s := s) rfl]

/-- The frame is stored in the pool as the check found it, whatever else the decision changed. -/
theorem stored_of_accepted {t : State} {g : FrameNo} {rest : List FrameNo} (head : s.fpl.freeList = g :: rest)
    (pool : t.fpl = ((s.checked h payload check).accept h payload).fpl)
    (inbound : t.ibu = ((s.checked h payload check).accept h payload).ibu) : s.Stored t g h payload :=
  stored_congr (s := s.checked h payload check) (stored_accept head) ⟨rfl, rfl⟩ ⟨pool, inbound⟩

end

/-! ## The statements -/

/-- Settles O46: the MESSAGE that test 4 accepts. -/
theorem messageStored : Obligations.MessageStored := by
  intro s h payload check atCheck drives passes kind dest hown present new credit free e
  obtain ⟨g, rest, head⟩ := List.exists_cons_of_ne_nil free
  obtain ⟨rdc, osc, -⟩ := endCheck_keeps s h payload check
  obtain ⟨decision, ended⟩ :=
    endCheck_message ((judges_eq atCheck).trans drives) passes kind dest hown present new credit
  have peers := congrArg State.peers ended
  have port := congrArg State.lpt ended
  have wake := congrArg State.wku ended
  have pool := congrArg State.fpl ended
  have inbound := congrArg State.ibu ended
  have stored := stored_of_accepted head pool inbound
  have freed := freeCount_of_stored stored
  have used := reserve_of_granted_used peers (Nat.sub_add_cancel credit) rfl
  have spare : (s.endCheck h payload check).spare = s.spare := by
    simp only [State.spare]
    omega
  exact ⟨_, g, frameCheckEnd_next atCheck, stored, peers, port, wake, freed, used, spare, decision, rdc, osc⟩

/-- Settles O48: CREDIT frames and NOTICEs, by their source's entry and by spare. -/
theorem creditAndNoticeJudged : Obligations.CreditAndNoticeJudged := by
  intro s h payload check atCheck drives passes hown e
  have judges := (judges_eq atCheck).trans drives
  obtain ⟨rdc, osc, -⟩ := endCheck_keeps s h payload check
  have only : ∀ d, s.OnlyDecides h true d → (s.endCheck h payload check).fen.decision = some d ∧
      s.SameTraffic (s.endCheck h payload check) := fun d decides =>
    endCheck_onlyDecides judges ((checkGood_iff.mpr passes).symm ▸ decides)
  refine ⟨_, frameCheckEnd_next atCheck, rdc, osc, fun kind dest => ?_, fun kind => ?_⟩
  · have window : h.kind ≠ .notice := by simp [kind]
    refine ⟨fun absent => only _ (onlyDecides_absent (.inr dest) absent),
      fun present duplicate => only _ (onlyDecides_duplicate window dest present duplicate), fun present new => ?_⟩
    obtain ⟨decision, ended⟩ := endCheck_credit judges passes kind dest hown present new
    have pool := congrArg State.fpl ended
    refine ⟨decision, congrArg State.peers ended, congrArg State.lpt ended, pool, ?_⟩
    rw [ended]
    exact ⟨rfl, rfl, rfl, rfl, rfl, rfl, rfl, rfl, rfl, rfl, rfl, rfl, rfl, rfl, rfl, rfl, rfl⟩
  · have refused : e.present = false ∨ s.spare = 0 → (s.endCheck h payload check).fen.decision = some .refuse ∧
        s.SameTraffic (s.endCheck h payload check) := by
      intro why
      cases present : e.present with
      | false => exact only _ (onlyDecides_absent (.inl kind) present)
      | true => exact only _ (onlyDecides_noSpare kind present (why.resolve_left (by simp [present])))
    by_cases stores : e.present = true ∧ 1 ≤ s.spare
    · obtain ⟨present, spare⟩ := stores
      obtain ⟨decision, ended⟩ := endCheck_notice judges passes kind present spare
      obtain ⟨entriesKept, portKept, -⟩ := accept_keeps (s.checked h payload check) h payload
      have peers : (s.endCheck h payload check).peers = s.peers := (congrArg State.peers ended).trans entriesKept
      have port := (congrArg State.lpt ended).trans portKept
      have wake := congrArg State.wku ended
      have free : s.fpl.freeList ≠ [] := by
        intro empty
        simp [State.spare, State.freeCount, empty] at spare
      obtain ⟨g, rest, head⟩ := List.exists_cons_of_ne_nil free
      have pool := congrArg State.fpl ended
      have inbound := congrArg State.ibu ended
      have stored := stored_of_accepted head pool inbound
      have freed := freeCount_of_stored stored
      have reserve := reserve_of_same peers
      refine ⟨peers, port, refused, fun _ _ => ⟨decision, ⟨g, stored⟩, freed, ?_, reserve, wake⟩⟩
      simp only [State.spare] at spare ⊢
      omega
    · have why := (not_and_or.mp stores).imp Bool.eq_false_of_not_eq_true Nat.eq_zero_of_not_pos
      obtain ⟨-, -, peers, -, -, -, port, -⟩ := refused why
      exact ⟨peers, port, refused, fun present spare => absurd ⟨present, spare⟩ stores⟩

end Sys2Proof.Laws
end

section
/-!
SUPPORT. The payload and frame check of the own window (03 R48, R49; 07 R130): what the command reads, by whether the
claimant has collided and has fixed a GOOD header, and where it collides.
-/

namespace Sys2Proof.Machine

/-- FEN after the claimant `y` has read the payload cells of the own window, `given` by the other stations. -/
def State.fenFilled (s : State) (given : List Byte) (y : Tx) : Fen :=
  { s.fen with tx := some y, staging := { s.fen.staging with payload := wiredAnd given y.payloadOnLine } }

end Sys2Proof.Machine

namespace Sys2Proof.Laws

open Sys2Proof.Machine

/-! ## The first collision -/

theorem collidesAt_iff (x : Tx) (others : List Byte) (n : Nat) : x.collidesAt others n = true ↔
    n < 8 * x.bytes.length ∧ x.bit n = true ∧ (others.getD (n / 8) 0xFF).getLsbD (7 - n % 8) = false := by
  simp only [Tx.collidesAt, cellBit, Bool.and_eq_true, decide_eq_true_eq, Bool.not_eq_true']
  exact ⟨fun ⟨⟨bit, within⟩, low⟩ => ⟨within, bit, low⟩, fun ⟨within, bit, low⟩ => ⟨⟨bit, within⟩, low⟩⟩

theorem firstCollision_eq_none {x : Tx} {others : List Byte} (clear : ∀ n, ¬ x.collidesAt others n = true) :
    x.firstCollision others = none :=
  List.find?_eq_none.mpr fun n _ => clear n

theorem firstCollision_eq_some {x : Tx} {others : List Byte} {n : Nat} (collides : x.collidesAt others n = true)
    (first : ∀ m, m < n → ¬ x.collidesAt others m = true) : x.firstCollision others = some n := by
  obtain ⟨within, -⟩ := (collidesAt_iff x others n).mp collides
  refine List.find?_range_eq_some.mpr ⟨collides, List.mem_range.mpr within, fun m hm => ?_⟩
  simpa using first m hm

theorem bytesOf16_eq (w : BitVec 16) : bytesOf16 w = [(w >>> 8).setWidth 8, w.setWidth 8] := by
  rw [BitVec.setWidth_ushiftRight_eq_extractLsb, BitVec.setWidth_eq_extractLsb' (by decide)]
  rfl

/-- A claimant that has not collided collides in the body where it first reads LOW what it released, if anywhere. -/
theorem afterBody_clear {x : Tx} (clear : x.collidedAt = none) (payload : List Byte) (check : BitVec 16) :
    x.afterBody payload check = { x with
      collidedAt := x.firstCollision (List.replicate 7 (0xFF : Byte) ++ lineBytes x.payload.length payload ++
        [(check >>> 8).setWidth 8, check.setWidth 8]) } := by
  rw [← bytesOf16_eq]
  unfold Tx.afterBody
  rw [clear]
  rfl

/-! ## What the command reads -/

section
variable {s : State} {x : Tx} {payload : List Byte} {check : BitVec 16}

theorem readsLine_of_ownWindow (window : s.ownWindow = true) : s.readsLine = true := by
  simp only [State.ownWindow, State.isMember, Bool.and_eq_true, beq_iff_eq] at window
  obtain ⟨member, -⟩ := window
  unfold State.readsLine
  rw [member]

theorem awaitsCheck_own (own : s.InOwnWindow x) (body : s.rdc.stage = .body) :
    s.awaitsCheck = if x.collidedAt = none then none else s.fen.staging.fields := by
  have sending := ownSending_eq own
  obtain ⟨-, window, -⟩ := own
  unfold State.awaitsCheck
  rw [readsLine_of_ownWindow window, body, sending]
  cases x.collidedAt <;> rfl

/-- A claimant that has fixed no GOOD header reads the payload cells, and compares what it has not collided before. -/
theorem frameCheckEnd_own (own : s.InOwnWindow x) (body : s.rdc.stage = .body)
    (unfixed : x.collidedAt = none ∨ s.fen.staging.fields = none) :
    exec (.frameCheckEnd payload check) s = .next (s.endOwnBody x payload check) := by
  have awaits : s.awaitsCheck = none := by
    rw [awaitsCheck_own own body]
    rcases unfixed with clear | noFields <;> simp [*]
  have sending := ownSending_eq own
  obtain ⟨hr, window, tx⟩ := own
  have reads : s.ownBody = some x := by
    rcases unfixed with clear | noFields <;> simp [State.ownBody, *]
  refine (whenDue_due hr (by simp [reads])).trans ?_
  simp only [awaits, reads]

theorem endOwnBody_keeps {y : Tx} (after : x.afterBody payload check = y) :
    (s.endOwnBody x payload check).fen = s.fenFilled (lineBytes x.payload.length payload) y ∧
    (s.endOwnBody x payload check).rdc = { s.rdc with stage := .judged } ∧
    s.SameTraffic (s.endOwnBody x payload check) := by
  subst after
  exact ⟨rfl, rfl, rfl, rfl, rfl, rfl, rfl, rfl, rfl, rfl⟩

/-- A collided claimant that has fixed a GOOD header ends the frame check as any reader. -/
theorem frameCheckEnd_ownFixed {h : HeaderFields} (own : s.InOwnWindow x) (body : s.rdc.stage = .body)
    (collided : x.collidedAt ≠ none) (fields : s.fen.staging.fields = some h) :
    exec (.frameCheckEnd payload check) s = .next (s.endCheck h payload check) := by
  have awaits : s.awaitsCheck = some h := by rw [awaitsCheck_own own body, if_neg collided, fields]
  refine (whenDue_due own.1 (by simp [awaits])).trans ?_
  simp only [awaits]

/-- In a window that it does not judge the station decides nothing. -/
theorem endCheck_unjudged {h : HeaderFields} (judges : s.judges = false) :
    s.endCheck h payload check = s.checked h payload check ∧ (s.endCheck h payload check).fen = { s.fen with
      staging := { s.fen.staging with
        payload := lineBytes h.length payload
        checkState := some (if s.checkGood h payload check then .good else .failed) }
      decision := none } := by
  have ended : s.endCheck h payload check = s.checked h payload check := by
    rw [endCheck_eq, judges]
    rfl
  refine ⟨ended, ?_⟩
  rw [ended, State.checked, judges]
  rfl

end

/-- Settles O47: the windows that leave pool and entries as they were. -/
theorem windowsJudgedWithoutEffect : Obligations.WindowsJudgedWithoutEffect := by
  constructor
  · intro s h payload check atCheck e decides
    obtain ⟨rdc, -⟩ := endCheck_keeps s h payload check
    have judged : ∀ good d, s.drivesLine = true → s.checkGood h payload check = good → s.OnlyDecides h good d →
        decides (some d) := by
      rintro good d drives rfl only
      obtain ⟨decision, same⟩ := endCheck_onlyDecides ((judges_eq atCheck).trans drives) only
      exact ⟨_, frameCheckEnd_next atCheck, decision, rdc, same⟩
    refine ⟨fun silent => ?_, fun drives kind dest => judged _ _ drives rfl (onlyDecides_elsewhere _ kind dest),
      fun drives kind dest fails =>
        judged _ _ drives (checkGood_eq_false_iff.mpr fails) (onlyDecides_damaged kind dest),
      fun drives kind fails =>
        judged _ _ drives (checkGood_eq_false_iff.mpr fails) (onlyDecides_damagedNotice kind),
      fun drives kind dest passes => ?_⟩
    · obtain ⟨ended, fen⟩ := endCheck_unjudged (h := h) (payload := payload) (check := check)
        ((judges_eq atCheck).trans silent)
      exact ⟨_, frameCheckEnd_next atCheck, by rw [fen], rdc, ended ▸ sameTraffic_checked s h payload check⟩
    · have window : h.kind ≠ .notice := by simp [kind]
      have answered := fun d => judged true d drives (checkGood_iff.mpr passes)
      exact ⟨fun absent => answered _ (onlyDecides_absent (.inr dest) absent),
        fun present duplicate => answered _ (onlyDecides_duplicate window dest present duplicate),
        fun present new noCredit => answered _ (onlyDecides_noCredit kind dest present new noCredit)⟩
  · intro s x payload check own body reads given filled line collides
    have fills : ∀ y, x.collidedAt = none ∨ s.fen.staging.fields = none → x.afterBody payload check = y →
        reads (filled y) := fun y unfixed after =>
      ⟨_, frameCheckEnd_own own body unfixed, endOwnBody_keeps after⟩
    have after (clear : x.collidedAt = none) : x.afterBody payload check =
        { x with collidedAt := x.firstCollision line } := afterBody_clear clear payload check
    have collides_iff : ∀ n, x.collidesAt line n = true ↔ collides n := collidesAt_iff x line
    refine ⟨fun collided noFields => ?_, fun clear quiet => ?_, fun n clear first before => ?_,
      fun h collided fields => ?_⟩
    · obtain ⟨c, hc⟩ := Option.ne_none_iff_exists'.mp collided
      exact fills x (.inr noFields) (afterBody_collided x c payload check hc)
    · refine fills x (.inl clear) ?_
      rw [after clear, firstCollision_eq_none fun n => mt (collides_iff n).mp (quiet n), ← clear]
    · refine fills _ (.inl clear) ?_
      rw [after clear, firstCollision_eq_some ((collides_iff n).mpr first)
        fun m hm => mt (collides_iff m).mp (before m hm)]
    · have next := frameCheckEnd_ownFixed (payload := payload) (check := check) own body collided fields
      obtain ⟨-, window, -⟩ := own
      obtain ⟨ended, fen⟩ := endCheck_unjudged (s := s) (h := h) (payload := payload) (check := check)
        (by simp [State.judges, window])
      obtain ⟨rdc, -⟩ := endCheck_keeps s h payload check
      have same : s.SameTraffic (s.endCheck h payload check) := ended ▸ sameTraffic_checked s h payload check
      constructor
      · intro passes
        rw [checkGood_iff.mpr passes] at fen
        exact ⟨_, next, fen, rdc, same⟩
      · intro fails
        rw [checkGood_eq_false_iff.mpr fails] at fen
        exact ⟨_, next, fen, rdc, same⟩

end Sys2Proof.Laws
end

section
/-!
SUPPORT. The start of the own window with a credit frame or EMPTY (04 R66, R75, R78): what each takes.
-/

namespace Sys2Proof.Machine

/-- The transmission of seven header bytes and nothing after them, not collided (04 Table 4-3, 07 R121). -/
def Tx.headerOnly (bytes : List Byte) : Tx := { header := bytes, payload := [], collidedAt := none }

end Sys2Proof.Machine

namespace Sys2Proof.Laws

open Sys2Proof.Machine

section
variable {s : State} {p : Pos}

/-- A new credit frame that finds nothing to grant becomes EMPTY (04 R75). -/
theorem startWindow_newCredit_empty {b : Option OpenSeq} (slot : s.osc.slot = some (.newCredit p b))
    (none_left : s.grantTo p = 0) : s.startWindow = { s with
      osc := { s.osc with slot := some .empty, creditLast := true }
      fen := s.fen.sends (.headerOnly emptyHeader) (.creditBuilt p 0 s.osc.creditLast) } := by
  simp only [State.startWindow, slot, State.startCredit, none_left, if_true]
  rfl

/-- A new credit frame takes the send sequence and its grant, which passes from owed to pending (04 R66, R75). -/
theorem startWindow_newCredit_built {b : Option OpenSeq} (slot : s.osc.slot = some (.newCredit p b))
    (hown : p ≠ s.own) (some_left : s.grantTo p ≠ 0) : s.startWindow = { s with
      peers := s.peers.set p ((s.peer p).grantBuilt (s.grantTo p))
      osc := { s.osc with
        slot := some (.newCredit p (some { seq := (s.peer p).sendSeq, grant := s.grantTo p })), creditLast := true }
      fen := s.fen.sends
        (.headerOnly (encodeHeader (s.creditHeader p { seq := (s.peer p).sendSeq, grant := s.grantTo p })))
        (.creditBuilt p (s.grantTo p) s.osc.creditLast) } := by
  simp only [State.startWindow, slot, State.startCredit, some_left, if_false]
  rw [updPeer_of_ne _ hown]
  rfl

/-- A retry of an open credit frame takes nothing (04 R67, R78). -/
theorem startWindow_creditRetry {o : OpenCredit} (slot : s.osc.slot = some (.creditRetry p))
    (credit : (s.peer p).openCredit = some o) : s.startWindow =
      (s.setCreditLast true).withFen (s.fen.sends
        (.headerOnly (encodeHeader (s.creditHeader p { seq := o.seq, grant := o.grant })))
        (.header s.osc.creditLast)) := by
  simp only [State.startWindow, slot, credit]
  rfl

/-- EMPTY takes nothing and leaves the credit-frame-last flag (07 R129). -/
theorem startWindow_empty (slot : s.osc.slot = some .empty) :
    s.startWindow = s.withFen (s.fen.sends (.headerOnly emptyHeader) (.header s.osc.creditLast)) := by
  simp only [State.startWindow, slot, State.startEmpty, setSlot_self slot]
  rfl

end

/-- Settles O39: the start of the own window with a new credit frame, a retry or EMPTY. -/
theorem windowStartOfACreditFrame : Obligations.WindowStartOfACreditFrame := by
  intro s hr hw hs htx sends header
  obtain ⟨hfen, hclk, hrdc, hlpt, same⟩ := beginOwnWindow_frame s
  have starts : ∀ {y u} bytes, s.osc.slot = some y → s.startWindow = u →
      u.fen.tx = some (.headerOnly bytes) → u.fpl = s.fpl →
      ∃ t, exec .windowStart s = .next t ∧ sends t bytes ∧ t.peers = u.peers ∧ t.osc = u.osc := by
    rintro y u bytes slot rfl tx pool
    exact ⟨_, windowStart_due hr hw hs htx slot, ⟨tx, hfen, hclk, hrdc, hlpt, pool, same⟩, rfl, rfl⟩
  refine ⟨fun p b slot hown => ⟨fun none_left => ?_, fun some_left => ?_⟩, fun p o slot credit => ?_,
    fun slot => ?_⟩
  · exact starts _ slot (startWindow_newCredit_empty slot none_left) rfl rfl
  · exact starts _ slot (startWindow_newCredit_built slot hown (Nat.ne_of_gt some_left)) rfl rfl
  · exact starts _ slot (startWindow_creditRetry slot credit) rfl rfl
  · exact (starts _ slot (startWindow_empty slot) rfl rfl :)

end Sys2Proof.Laws
end

section
/-!
SUPPORT. The answer to a credit frame (04 R68, R76, R79): final, or not.
-/

namespace Sys2Proof.Laws

open Sys2Proof.Machine

/-! ## The answer that is read (07 Table 7-3) -/

section
variable {x : Tx} {a b : Level}

theorem accepted_answer (h : x.collidedAt = none ∧ a = .low ∧ b = .high) :
    (if x.collidedAt.isSome then Answer.collided else readAnswer a b) = .accepted := by
  obtain ⟨clear, rfl, rfl⟩ := h
  simp [clear, readAnswer]

theorem refused_answer (h : x.collidedAt = none ∧ a = .high ∧ b = .low) :
    (if x.collidedAt.isSome then Answer.collided else readAnswer a b) = .refused := by
  obtain ⟨clear, rfl, rfl⟩ := h
  simp [clear, readAnswer]

end

/-! ## The settlement -/

section
variable {s : State} {p : Pos}

theorem outcomeSettled_newCredit (s : State) (x : Tx) (p : Pos) (o : OpenSeq) (a b : Level) :
    s.outcomeSettled x (.newCredit p (some o)) a b = (s.atOutcome x).settleNewCredit p o
      (if x.collidedAt.isSome then .collided else readAnswer a b) := rfl

theorem outcomeSettled_creditRetry {o : OpenCredit} (x : Tx) (credit : (s.peer p).openCredit = some o) (a b : Level) :
    s.outcomeSettled x (.creditRetry p) a b = (s.atOutcome x).settleRetry p o
      (if x.collidedAt.isSome then .collided else readAnswer a b) := by
  have credit : ((s.atOutcome x).peer p).openCredit = some o := credit
  unfold State.atOutcome at credit
  simp only [State.outcomeSettled, State.settleWindow, credit]
  rfl

theorem settleNewCredit_accepted (s : State) (p : Pos) (o : OpenSeq) :
    s.settleNewCredit p o .accepted = s.updPeer p (fun e => e.settle true o.grant) := rfl

theorem settleNewCredit_refused (s : State) (p : Pos) (o : OpenSeq) :
    s.settleNewCredit p o .refused = s.updPeer p (fun e => e.settle false o.grant) := rfl

/-- A new credit frame that gets no final answer becomes p's open credit frame (04 R76). -/
theorem settleNewCredit_failed {o : OpenSeq} {answer : Answer} (failed : answer ≠ .accepted ∧ answer ≠ .refused) :
    s.settleNewCredit p o answer =
      s.updPeer p (fun e => { e with openCredit := some { seq := o.seq, grant := o.grant, attempts := 1 } }) := by
  cases answer with
  | accepted => exact absurd rfl failed.1
  | refused => exact absurd rfl failed.2
  | _ => rfl

/-- A final answer closes the open credit frame (04 R79). -/
theorem settleRetry_accepted (s : State) (p : Pos) (o : OpenCredit) : s.settleRetry p o .accepted =
    s.updPeer p (fun e => { e.settle true o.grant with openCredit := none }) := rfl

theorem settleRetry_refused (s : State) (p : Pos) (o : OpenCredit) : s.settleRetry p o .refused =
    s.updPeer p (fun e => { e.settle false o.grant with openCredit := none }) := rfl

/-- A retry that gets no final answer raises its attempts, and at 4 its peer is lost (04 R79). -/
theorem settleRetry_failed {o : OpenCredit} {answer : Answer} (failed : answer ≠ .accepted ∧ answer ≠ .refused) :
    s.settleRetry p o answer =
      if 4 ≤ o.attempts + 1 then s.losePeer p 0 .peerLost
      else s.updPeer p (fun e => { e with openCredit := some { o with attempts := o.attempts + 1 } }) := by
  cases answer with
  | accepted => exact absurd rfl failed.1
  | refused => exact absurd rfl failed.2
  | _ => rfl

end

/-- Settles O54: the answers to a new credit frame and to a retry. -/
theorem answerToACreditFrame : Obligations.AnswerToACreditFrame := by
  intro s x p a b own stage hown e accepted refused failed becomes
  have settles : ∀ {y g}, s.osc.slot = some y → y ≠ .empty →
      s.outcomeSettled x y a b = (s.atOutcome x).updPeer p g → becomes (g e) := by
    intro y g slot notEmpty settled
    obtain ⟨peers, pool, queues, -⟩ := endOwnWindow_traffic own y a b
    rw [settled, updPeer_of_ne g (show p ≠ (s.atOutcome x).own from hown)] at peers pool queues
    exact ⟨_, outcome_due own stage slot notEmpty a b, peers, pool, queues⟩
  refine ⟨fun o slot => ?_, fun o slot credit => ?_⟩
  · have settled := outcomeSettled_newCredit s x p o a b
    refine ⟨fun final => ?_, fun final => ?_, fun notFinal => ?_⟩
    · rw [accepted_answer final, settleNewCredit_accepted] at settled
      exact (settles slot (by simp) settled :)
    · rw [refused_answer final, settleNewCredit_refused] at settled
      exact (settles slot (by simp) settled :)
    · rw [settleNewCredit_failed (failed_answer notFinal)] at settled
      exact (settles slot (by simp) settled :)
  · have settled := outcomeSettled_creditRetry x credit a b
    refine ⟨fun final => ?_, fun final => ?_, fun notFinal below => ?_, fun notFinal last => ?_⟩
    · rw [accepted_answer final, settleRetry_accepted] at settled
      exact (settles slot (by simp) settled :)
    · rw [refused_answer final, settleRetry_refused] at settled
      exact (settles slot (by simp) settled :)
    · rw [settleRetry_failed (failed_answer notFinal), if_neg (not_le.mpr below)] at settled
      exact (settles slot (by simp) settled :)
    · rw [settleRetry_failed (failed_answer notFinal), if_pos last] at settled
      obtain ⟨peers, -, queues, event⟩ := endOwnWindow_traffic own (.creditRetry p) a b
      rw [settled] at peers queues event
      exact ⟨_, outcome_due own stage slot (by simp) a b,
        peers.trans (losePeer_peers (s := s.atOutcome x) hown 0 .peerLost), event.trans (losePeer_latched _ p 0 _),
        (congrArg Osc.slot queues).trans (slot_losePeer _ p 0 .peerLost)⟩

end Sys2Proof.Laws
end

section
/-!
SUPPORT. A state in which `State.CreditKept` holds and that a step leads out of. `State.UndoCovered` asks something of a
kept cancellation only where its frame is DONE, so it allows one whose frame is FILLING and whose peer is ABSENT; a POST
that finds the frame malformed makes it DONE (01 R10, 02 R21).
-/

namespace Sys2Proof.Machine

/-- The record kept of a cancelled MESSAGE to peer 1, never sent. -/
def keptMessage : Posted :=
  { cls := .routine, peer := some 1, length := 0, tag := 0, attempts := 0, openSeq := none, postNo := 0 }

/-- The cancellation of frame 0 at the start of an own window, kept until the mark of its first cell is read. -/
def keptCancellation : Undo :=
  { window := some 0, staging := Staging.atReset, tx := none, start := some (.cancelled 0 keptMessage false) }

/-- After an EMPTY window of peer 1 the station, at position 0, holds EMPTY for its own window. The kept window start
says that frame 0 was cancelled, but frame 0 is FILLING, with a length of 255 in its descriptor, and peer 1 is ABSENT.
The local processor posts frame 0. -/
def State.strayCancellation : State :=
  { State.reset with
    rdc := { Rdc.atReset with participation := .member, stage := .header, claimants := [1, 0], window := some 1 }
    fen := { Fen.atReset with undo := some keptCancellation }
    fpl := { Fpl.atReset [(2, 0xFF)] 0 with
      frames := (Vector.replicate 48 .free).set 0 .filling, freeList := (List.finRange 48).tail }
    osc := { Osc.atReset with slot := some .empty }
    pending := [.post 0] }

end Sys2Proof.Machine

namespace Sys2Proof.Laws

open Sys2Proof.Machine

theorem strayCancellation_peer (p : Pos) : State.strayCancellation.peer p = PeerEntry.atReset :=
  peer_afterReset { pos := 0, credit := 0, rate := 0 } [] 0 .idle none [] p

theorem strayCancellation_frame (f : FrameNo) :
    State.strayCancellation.frame f = if f = 0 then .filling else .free := by
  revert f
  decide

/-- No frame is posted, carries a sequence or bears credit. -/
theorem strayCancellation_idle (f : FrameNo) (p : Pos) :
    (State.strayCancellation.frame f).posted? = none ∧ (State.strayCancellation.frame f).inFlightTo p = false ∧
    (State.strayCancellation.frame f).bearsCreditOf p = false := by
  rw [strayCancellation_frame]
  split <;> exact ⟨rfl, rfl, rfl⟩

theorem strayCancellation_placed : State.strayCancellation.Placed := by
  unfold State.Placed
  decide

theorem strayCancellation_conserved (p : Pos) : State.strayCancellation.ConservedAt p := by
  have credit : State.strayCancellation.creditBearingOf p = 0 :=
    List.countP_eq_zero.mpr fun f _ => by simp [strayCancellation_idle f p]
  simp [State.ConservedAt, strayCancellation_peer, PeerEntry.atReset, credit]

theorem strayCancellation_covered (p : Pos) : State.strayCancellation.SequenceCovered p := by
  have none_open : State.strayCancellation.openSequences p = 0 := by
    have flight : State.strayCancellation.inFlight p = 0 :=
      List.countP_eq_zero.mpr fun f _ => by simp [strayCancellation_idle f p]
    have slot : State.strayCancellation.slotCreditTo p = false := rfl
    simp [State.openSequences, flight, strayCancellation_peer, PeerEntry.atReset, slot]
  refine ⟨by omega, by omega, fun f q o posted => ?_, fun o credit => ?_, fun o slot => nomatch slot⟩
  · cases (strayCancellation_idle f p).1.symm.trans posted
  · rw [strayCancellation_peer] at credit
    cases credit

/-- The kept cancellation names no DONE frame, and nothing is asked of it. -/
theorem strayCancellation_undoCovered : State.strayCancellation.UndoCovered := by
  intro u kept
  cases kept
  refine ⟨.inl rfl, ⟨0, rfl, fun _ => rfl⟩, ?_, ?_, ?_⟩
  · intro f p k c start
    cases start
  · intro f was c p start done
    obtain ⟨d, done⟩ := done
    cases start
    cases (strayCancellation_frame 0).symm.trans done
  · intro p k c start
    cases start

theorem strayCancellation_creditKept : State.strayCancellation.CreditKept := by
  refine ⟨strayCancellation_placed, strayCancellation_peer _, fun p =>
    ⟨strayCancellation_conserved p, ?_, strayCancellation_covered p⟩, ?_, fun _ =>
    ⟨rfl, .inr ⟨1, 1, rfl, le_rfl, rfl, .inl rfl⟩⟩, strayCancellation_undoCovered⟩
  · rw [strayCancellation_peer]
    exact .inl rfl
  · simp [State.ReserveCovered, State.reserve, strayCancellation_peer, PeerEntry.atReset]

/-- POST finds the descriptor malformed, and frame 0 enters DONE; the slot, the entries and the kept window start are as
before. -/
theorem strayCancellation_step : ∃ t d, step State.strayCancellation = .next t ∧ t.frame 0 = .done d ∧
    t.osc.slot = some .empty ∧ (t.peer 1).present = false ∧ t.fen = State.strayCancellation.fen := by
  obtain ⟨malformed, -, -⟩ := postByTheDescriptor { State.strayCancellation with pending := [] } 0 rfl
    (strayCancellation_frame 0)
  have posted := malformed fun ⟨length, _⟩ => absurd length (by decide)
  exact ⟨_, _, posted, frame_of_set_same rfl, rfl, congrArg PeerEntry.present (strayCancellation_peer 1), rfl⟩

/-- Refutes O59 by its first part, the step from every state: credit is kept in the state above, and POST leads to one
whose kept cancellation names a DONE frame and an ABSENT peer, against `State.UndoCovered`. The second part, the runs
from a reset, is not what fails here. -/
theorem not_creditKeptByEveryStepAndRun : ¬ Obligations.CreditKeptByEveryStepAndRun := by
  rintro ⟨kept, -⟩
  obtain ⟨t, d, stepped, done, slot, absent, fen⟩ := strayCancellation_step
  obtain ⟨⟨-, -, -, -, -, undo⟩, -⟩ := kept _ t stepped strayCancellation_creditKept
  obtain ⟨-, -, -, cancelled, -⟩ := undo _ (congrArg Fen.undo fen)
  obtain ⟨present, -⟩ := cancelled 0 keptMessage false 1 rfl ⟨d, done⟩ slot rfl
  cases absent.symm.trans present

end Sys2Proof.Laws
end

section
/-!
SUPPORT. Loss of a peer and reinitialisation of its entry (05 R86, R90): what they make of the records that name the
peer, of its entry and of the queues.
-/

namespace Sys2Proof.Machine

/-- The peer that a QUEUED frame is to, or that an inbound frame is from. -/
def FrameRecord.names (r : FrameRecord) : Option Pos :=
  match r with
  | .queued q => q.peer
  | .arrived i | .held i => i.peer
  | .free | .filling | .sending _ _ | .done _ => none

end Sys2Proof.Machine

namespace Sys2Proof.Laws

open Sys2Proof.Machine

/-! ## Records, by the peer they name -/

theorem names_of_queuedTo {r : FrameRecord} {p : Pos} (h : r.queuedTo p = true) : r.names = some p := by
  obtain ⟨q, rfl, hp⟩ := (queuedTo_iff r p).mp h
  exact hp

theorem clearCredit_arrived (i : InRecord) (p : Pos) : (FrameRecord.arrived i).clearCredit p =
    .arrived (if i.peer = some p then { i with creditBearing := false } else i) := by
  unfold FrameRecord.clearCredit
  dsimp only
  split <;> rfl

theorem clearCredit_held (i : InRecord) (p : Pos) : (FrameRecord.held i).clearCredit p =
    .held (if i.peer = some p then { i with creditBearing := false } else i) := by
  unfold FrameRecord.clearCredit
  dsimp only
  split <;> rfl

theorem dropSeq_queued (q : Posted) (p : Pos) : (FrameRecord.queued q).dropSeq p =
    .queued (if q.peer = some p then { q with openSeq := none } else q) := by
  unfold FrameRecord.dropSeq
  dsimp only
  split <;> rfl

theorem dropSeq_of_not_queued {r : FrameRecord} (h : ∀ q, r ≠ .queued q) (p : Pos) : r.dropSeq p = r := by
  cases r with
  | queued q => exact absurd rfl (h q)
  | _ => rfl

theorem clearCredit_ne_queued {r : FrameRecord} (h : ∀ q, r ≠ .queued q) (p : Pos) (q : Posted) :
    r.clearCredit p ≠ .queued q := by
  cases r with
  | queued q => exact absurd rfl (h q)
  | arrived i => simp [clearCredit_arrived]
  | held i => simp [clearCredit_held]
  | _ => simp [FrameRecord.clearCredit]

theorem names_clearCredit (r : FrameRecord) (p : Pos) : (r.clearCredit p).names = r.names := by
  cases r with
  | arrived i =>
    rw [clearCredit_arrived]
    split <;> rfl
  | held i =>
    rw [clearCredit_held]
    split <;> rfl
  | _ => rfl

theorem names_dropSeq (r : FrameRecord) (p : Pos) : (r.dropSeq p).names = r.names := by
  cases r with
  | queued q =>
    rw [dropSeq_queued]
    split <;> rfl
  | _ => rfl

theorem clearCredit_of_unnamed {r : FrameRecord} {p : Pos} (h : r.names ≠ some p) : r.clearCredit p = r := by
  cases r with
  | arrived i => rw [clearCredit_arrived, if_neg (by exact h)]
  | held i => rw [clearCredit_held, if_neg (by exact h)]
  | _ => rfl

theorem dropSeq_of_unnamed {r : FrameRecord} {p : Pos} (h : r.names ≠ some p) : r.dropSeq p = r := by
  cases r with
  | queued q => rw [dropSeq_queued, if_neg (by exact h)]
  | _ => rfl

/-! ## Reinitialisation -/

theorem reinitPeer_peers {s : State} {p : Pos} (hown : p ≠ s.own) :
    (s.reinitPeer p).peers = s.peers.set p (PeerEntry.reinitialised s.c0) := by
  rw [State.reinitPeer, State.latchPeer, withLpt_peers, State.mapFrames, withFpl_peers, State.setPeer, if_neg hown,
    withPeers_peers]

theorem reinitPeer_frame (s : State) (p : Pos) (f : FrameNo) :
    (s.reinitPeer p).frame f = ((s.frame f).clearCredit p).dropSeq p := by
  rw [State.reinitPeer, State.latchPeer, withLpt_frame, frame_mapFrames, setPeer_only]
  rfl

theorem reinitPeer_latched (s : State) (p : Pos) : (s.reinitPeer p).lpt.latched.peer = true := by
  obtain ⟨_, _, h⟩ := reinitPeer_only s p
  rw [h]

theorem reinitPeer_osc (s : State) (p : Pos) : (s.reinitPeer p).osc = s.osc := by
  obtain ⟨_, _, h⟩ := reinitPeer_only s p
  rw [h]

/-- Settles O33: each act by what it does to entries, records and queues, and the fields it changes. -/
theorem lossAndReinitialisation : Obligations.LossAndReinitialisation := by
  intro s p placed hown marks
  have cleared : ∀ r, r.clearCredit p = marks r := fun r => by
    cases r with
    | arrived i => exact clearCredit_arrived i p
    | held i => exact clearCredit_held i p
    | _ => rfl
  refine ⟨fun missed outcome => ?_, reinitPeer_peers hown, fun f q was => ?_, fun f other => ?_, ?_⟩
  · obtain ⟨queues, frames⟩ := losePeer_spec (nodup_queues placed) p missed outcome
    refine ⟨losePeer_peers hown missed outcome, fun f q was names => ?_, fun f other => ?_, ?_, ?_⟩
    · have waits : (s.frame f).queuedTo p = true := (queuedTo_iff _ p).mpr ⟨q, was, names⟩
      rw [frames, if_pos ⟨mem_queues_of_queued placed was, waits⟩, was]
      rfl
    · rw [frames, if_neg (by simp [other]), cleared]
    · rw [queues, State.oscWithout, List.append_assoc]
    · obtain ⟨_, _, _, _, _, only⟩ := losePeer_only s p missed outcome
      rw [only]
  · rw [reinitPeer_frame, was]
    exact dropSeq_queued q p
  · rw [reinitPeer_frame, dropSeq_of_not_queued (clearCredit_ne_queued other p), cleared]
  · obtain ⟨_, _, only⟩ := reinitPeer_only s p
    rw [only]

end Sys2Proof.Laws
end

section
/-!
SUPPORT. What the end of the PRESENCE or JOIN field does with each peer (05 R84, R85, R89, R94): one fate for each, met
in ascending position order. A peer's fate depends on its own entry alone, and reaches only the entry, the records and
the queued frames of that peer, so the sweep over all peers is read off the state before it.
-/

namespace Sys2Proof.Machine

/-- What the end of a field does with one peer (05 R84, R85, R89, R94). -/
inductive PeerFate where
  | kept
  | counted (missed : Nat)
  | lost (missed : Nat) (outcome : Completion)
  | reinitialised
  /-- The entry stays as it is, and the frames to the peer complete (05 R94). -/
  | dismissed (outcome : Completion)

/-- The peer meets its fate, by the act of the model. -/
def State.meet (s : State) (p : Pos) (fate : PeerFate) : State :=
  match fate with
  | .kept => s
  | .counted missed => s.updPeer p fun e => { e with missed := missed }
  | .lost missed outcome => s.losePeer p missed outcome
  | .reinitialised => s.reinitPeer p
  | .dismissed outcome => s.completeAllTo p outcome

/-- The entry of a peer once it has met its fate. -/
def PeerFate.entry (fate : PeerFate) (c0 : Nat) (e : PeerEntry) : PeerEntry :=
  match fate with
  | .kept | .dismissed _ => e
  | .counted missed => { e with missed := missed }
  | .lost missed _ => .lost missed
  | .reinitialised => .reinitialised c0

/-- The entry is set anew: PEER is latched, and inbound frames of the peer lose credit-bearing (01 R18, 05 R98). -/
def PeerFate.resets (fate : PeerFate) : Bool :=
  match fate with
  | .lost _ _ | .reinitialised => true
  | .kept | .counted _ | .dismissed _ => false

/-- The QUEUED frames to the peer complete (01 R13). -/
def PeerFate.completes (fate : PeerFate) : Bool :=
  match fate with
  | .lost _ _ | .dismissed _ => true
  | .kept | .counted _ | .reinitialised => false

/-- The record of a frame once p has met its fate. -/
def PeerFate.record (fate : PeerFate) (p : Pos) (r : FrameRecord) : FrameRecord :=
  match fate with
  | .kept | .counted _ => r
  | .lost _ outcome => if r.queuedTo p then r.completed outcome else r.clearCredit p
  | .reinitialised => (r.clearCredit p).dropSeq p
  | .dismissed outcome => if r.queuedTo p then r.completed outcome else r

/-- Every peer of a list meets its fate, one after the other. -/
def State.sweep (s : State) (fate : Pos → PeerFate) (l : List Pos) : State :=
  l.foldl (fun t p => t.meet p (fate p)) s

/-- The record of a frame once every peer of a list has met its fate. -/
def FrameRecord.sweep (r : FrameRecord) (fate : Pos → PeerFate) (l : List Pos) : FrameRecord :=
  l.foldl (fun r p => (fate p).record p r) r

/-- A record of the same frame where the inbound frames from the peers of a list have lost credit-bearing. -/
def FrameRecord.clearCredits (r : FrameRecord) (l : List Pos) : FrameRecord :=
  match r with
  | .arrived i => .arrived (if l.any (fun p => i.peer == some p) then { i with creditBearing := false } else i)
  | .held i => .held (if l.any (fun p => i.peer == some p) then { i with creditBearing := false } else i)
  | .free | .filling | .queued _ | .sending _ _ | .done _ => r

/-- OSC once every QUEUED frame to the peers of a list has completed: the peers in the order of the list, of each the
URGENT queue's frames first, each queue's in its order (01 R13). -/
def State.oscWithoutAll (s : State) (l : List Pos) : Osc :=
  { s.osc with
    completion := s.osc.completion ++ l.flatMap fun p =>
      s.osc.urgent.filter (fun f => (s.frame f).queuedTo p) ++ s.osc.routine.filter (fun f => (s.frame f).queuedTo p)
    urgent := s.osc.urgent.filter (fun f => !l.any fun p => (s.frame f).queuedTo p)
    routine := s.osc.routine.filter (fun f => !l.any fun p => (s.frame f).queuedTo p) }

end Sys2Proof.Machine

namespace Sys2Proof.Laws

open Sys2Proof.Machine

/-! ## Records -/

/-- The fate of p reaches no record that does not name p. -/
theorem record_of_unnamed {r : FrameRecord} {p : Pos} (h : r.names ≠ some p) (fate : PeerFate) :
    fate.record p r = r := by
  have notQueued : ¬ r.queuedTo p = true := mt names_of_queuedTo h
  cases fate with
  | kept | counted => rfl
  | lost missed outcome => rw [PeerFate.record, if_neg notQueued, clearCredit_of_unnamed h]
  | reinitialised => rw [PeerFate.record, clearCredit_of_unnamed h, dropSeq_of_unnamed h]
  | dismissed outcome => rw [PeerFate.record, if_neg notQueued]

/-- A record names the same peer as before, or none once it is DONE. -/
theorem names_record (fate : PeerFate) (p : Pos) (r : FrameRecord) :
    (fate.record p r).names = none ∨ (fate.record p r).names = r.names := by
  have done : ∀ o, r.queuedTo p = true → (r.completed o).names = none := fun o h => by
    obtain ⟨q, rfl, -⟩ := (queuedTo_iff r p).mp h
    rfl
  cases fate with
  | kept | counted => exact .inr rfl
  | lost missed outcome =>
    by_cases h : r.queuedTo p = true
    · rw [PeerFate.record, if_pos h]
      exact .inl (done outcome h)
    · rw [PeerFate.record, if_neg h]
      exact .inr (names_clearCredit r p)
  | reinitialised => exact .inr ((names_dropSeq _ p).trans (names_clearCredit r p))
  | dismissed outcome =>
    by_cases h : r.queuedTo p = true
    · rw [PeerFate.record, if_pos h]
      exact .inl (done outcome h)
    · rw [PeerFate.record, if_neg h]
      exact .inr rfl

/-- The frames that wait for another peer are the same. -/
theorem queuedTo_record {p p' : Pos} (other : p' ≠ p) (fate : PeerFate) (r : FrameRecord) :
    (fate.record p r).queuedTo p' = r.queuedTo p' := by
  by_cases h : r.names = some p
  · have before : ¬ r.queuedTo p' = true := fun hq =>
      other (Option.some.inj ((names_of_queuedTo hq).symm.trans h))
    have after : ¬ (fate.record p r).queuedTo p' = true := fun hq => by
      rcases names_record fate p r with none | same
      · cases none.symm.trans (names_of_queuedTo hq)
      · exact other (Option.some.inj ((names_of_queuedTo hq).symm.trans (same.trans h)))
    rw [Bool.eq_false_of_not_eq_true before, Bool.eq_false_of_not_eq_true after]
  · rw [record_of_unnamed h]

/-! ## One peer -/

theorem settles_reinitPeer (s : State) (p : Pos) : Settles s (s.reinitPeer p) := by
  obtain ⟨_, _, h⟩ := reinitPeer_only s p
  rw [h]
  exact ⟨_, _, s.osc, _, rfl⟩

theorem settles_completeAllTo (s : State) (p : Pos) (o : Completion) : Settles s (s.completeAllTo p o) := by
  obtain ⟨_, _, _, _, h⟩ := completeAllTo_only s p o
  rw [h]
  exact ⟨s.peers, _, _, s.lpt.latched.peer, rfl⟩

theorem settles_meet (s : State) (p : Pos) (fate : PeerFate) : Settles s (s.meet p fate) := by
  cases fate with
  | kept => exact Settles.refl s
  | counted missed => exact settles_updPeer s p fun e => { e with missed := missed }
  | lost missed outcome => exact settles_losePeer s p missed outcome
  | reinitialised => exact settles_reinitPeer s p
  | dismissed outcome => exact settles_completeAllTo s p outcome

section
variable {s : State} {p : Pos}

theorem peers_set_self (s : State) (p : Pos) : s.peers.set p (s.peer p) = s.peers := by
  simp [State.peer]

theorem meet_peers (hown : p ≠ s.own) (fate : PeerFate) :
    (s.meet p fate).peers = s.peers.set p (fate.entry s.c0 (s.peer p)) := by
  cases fate with
  | kept => exact (peers_set_self s p).symm
  | counted missed => exact congrArg State.peers (updPeer_of_ne _ hown)
  | lost missed outcome => exact losePeer_peers hown missed outcome
  | reinitialised => exact reinitPeer_peers hown
  | dismissed outcome => exact (peers_completeAllTo s p outcome).trans (peers_set_self s p).symm

/-- Counting changes the entry alone. -/
theorem meet_counted_only (s : State) (p : Pos) (missed : Nat) :
    s.meet p (.counted missed) = { s with peers := (s.meet p (.counted missed)).peers } :=
  updPeer_only s p fun e => { e with missed := missed }

theorem meet_latched (s : State) (p : Pos) (fate : PeerFate) :
    (s.meet p fate).lpt.latched.peer = (s.lpt.latched.peer || fate.resets) := by
  cases fate with
  | kept => exact (Bool.or_false _).symm
  | counted missed =>
    rw [meet_counted_only]
    exact (Bool.or_false _).symm
  | lost missed outcome => exact (losePeer_latched s p missed outcome).trans (Bool.or_true _).symm
  | reinitialised => exact (reinitPeer_latched s p).trans (Bool.or_true _).symm
  | dismissed outcome =>
    obtain ⟨_, _, _, _, h⟩ := completeAllTo_only s p outcome
    rw [State.meet, h]
    exact (Bool.or_false _).symm

theorem meet_osc_of_no_completion {fate : PeerFate} (h : fate.completes = false) : (s.meet p fate).osc = s.osc := by
  cases fate with
  | kept => rfl
  | counted missed => rw [meet_counted_only]
  | reinitialised => exact reinitPeer_osc s p
  | lost | dismissed => cases h

/-- A fate that neither sets the entry anew nor completes a frame reaches the entry alone. -/
theorem meet_only_entry {fate : PeerFate} (resets : fate.resets = false) (completes : fate.completes = false) :
    (s.meet p fate).fpl = s.fpl ∧ (s.meet p fate).osc = s.osc ∧ (s.meet p fate).lpt = s.lpt := by
  cases fate with
  | kept => exact ⟨rfl, rfl, rfl⟩
  | counted missed =>
    rw [meet_counted_only]
    exact ⟨rfl, rfl, rfl⟩
  | reinitialised | lost => cases resets
  | dismissed => cases completes

/-- Every frame that waits for p is in one of the outbound queues. -/
theorem queuedTo_placed_iff (placed : s.Placed) (f : FrameNo) :
    (f ∈ s.osc.urgent ++ s.osc.routine ∧ (s.frame f).queuedTo p = true) ↔ (s.frame f).queuedTo p = true := by
  refine and_iff_right_of_imp fun waits => ?_
  obtain ⟨q, was, -⟩ := (queuedTo_iff _ p).mp waits
  exact mem_queues_of_queued placed was

theorem meet_frame (placed : s.Placed) (fate : PeerFate) (f : FrameNo) :
    (s.meet p fate).frame f = fate.record p (s.frame f) := by
  cases fate with
  | kept => rfl
  | counted missed =>
    rw [meet_counted_only]
    rfl
  | lost missed outcome =>
    obtain ⟨-, frames⟩ := losePeer_spec (nodup_queues placed) p missed outcome
    simp only [queuedTo_placed_iff placed] at frames
    exact frames f
  | reinitialised => exact reinitPeer_frame s p f
  | dismissed outcome =>
    obtain ⟨-, frames⟩ := completeAllTo_spec (nodup_queues placed) p outcome
    simp only [queuedTo_placed_iff placed] at frames
    exact frames f

theorem meet_osc (placed : s.Placed) {fate : PeerFate} (completes : fate.completes = true) :
    (s.meet p fate).osc = s.oscWithout p := by
  cases fate with
  | lost missed outcome => exact (losePeer_spec (nodup_queues placed) p missed outcome).1
  | dismissed outcome => exact (completeAllTo_spec (nodup_queues placed) p outcome).1
  | kept | counted | reinitialised => cases completes

theorem placed_losePeer (placed : s.Placed) (missed : Nat) (outcome : Completion) :
    (s.losePeer p missed outcome).Placed := by
  have entry : (s.setPeer p (PeerEntry.lost missed)).Placed := by
    rw [setPeer_only]
    exact placed
  refine Acts.keep (fun _ _ => placed_of_act) ?_ entry
  exact ((acts_mapFrames fun r => clearCredit_standsAs r p).trans (acts_completeAllTo _ p outcome)).trans
    (acts_latchPeer _)

theorem placed_meet (placed : s.Placed) (fate : PeerFate) : (s.meet p fate).Placed := by
  cases fate with
  | kept => exact placed
  | counted missed =>
    rw [meet_counted_only]
    exact placed
  | lost missed outcome => exact placed_losePeer placed missed outcome
  | reinitialised => exact Acts.keep (fun _ _ => placed_of_act) (acts_reinitPeer s p) placed
  | dismissed outcome => exact Acts.keep (fun _ _ => placed_of_act) (acts_completeAllTo s p outcome) placed

end

/-! ## Every peer of a list -/

theorem nodup_peerPositions (s : State) : s.peerPositions.Nodup :=
  (rising_peerPositions s).imp ne_of_lt

theorem settles_sweep (s : State) (fate : Pos → PeerFate) (l : List Pos) : Settles s (s.sweep fate l) := by
  induction l generalizing s with
  | nil => exact Settles.refl s
  | cons p rest ih => exact (settles_meet s p (fate p)).trans (ih _)

theorem own_of_settles {s t : State} (h : Settles s t) : t.own = s.own := by
  obtain ⟨_, _, _, _, rfl⟩ := h
  rfl

theorem c0_of_settles {s t : State} (h : Settles s t) : t.c0 = s.c0 := by
  obtain ⟨_, _, _, _, rfl⟩ := h
  rfl

theorem rdc_of_settles {s t : State} (h : Settles s t) : t.rdc = s.rdc := by
  obtain ⟨_, _, _, _, rfl⟩ := h
  rfl

theorem fen_of_settles {s t : State} (h : Settles s t) : t.fen = s.fen := by
  obtain ⟨_, _, _, _, rfl⟩ := h
  rfl

theorem meet_peer_self {s : State} {p : Pos} (hown : p ≠ s.own) (fate : PeerFate) :
    (s.meet p fate).peer p = fate.entry s.c0 (s.peer p) := by
  rw [peer_of_set (meet_peers hown fate), if_pos rfl]

theorem meet_peer_other {s : State} {p r : Pos} (hown : p ≠ s.own) (fate : PeerFate) (other : r ≠ p) :
    (s.meet p fate).peer r = s.peer r := by
  rw [peer_of_set (meet_peers hown fate), if_neg other]

theorem sweep_peer_of_not_mem {s : State} {fate : Pos → PeerFate} {l : List Pos} (peers : ∀ p ∈ l, p ≠ s.own)
    {r : Pos} (h : r ∉ l) : (s.sweep fate l).peer r = s.peer r := by
  induction l generalizing s with
  | nil => rfl
  | cons p rest ih =>
    obtain ⟨hp, hrest⟩ := List.forall_mem_cons.mp peers
    obtain ⟨other, notRest⟩ := not_or.mp (mt List.mem_cons.mpr h)
    have own := own_of_settles (settles_meet s p (fate p))
    exact (ih (own.symm ▸ hrest) notRest).trans (meet_peer_other hp _ other)

theorem sweep_peer {s : State} {fate : Pos → PeerFate} {l : List Pos} (peers : ∀ p ∈ l, p ≠ s.own)
    (nodup : l.Nodup) {r : Pos} (h : r ∈ l) : (s.sweep fate l).peer r = (fate r).entry s.c0 (s.peer r) := by
  induction l generalizing s with
  | nil => cases h
  | cons p rest ih =>
    obtain ⟨hp, hrest⟩ := List.forall_mem_cons.mp peers
    obtain ⟨notRest, nodupRest⟩ := List.nodup_cons.mp nodup
    have settles := settles_meet s p (fate p)
    have hrest : ∀ r ∈ rest, r ≠ (s.meet p (fate p)).own := (own_of_settles settles).symm ▸ hrest
    rcases List.mem_cons.mp h with rfl | inRest
    · exact (sweep_peer_of_not_mem hrest notRest).trans (meet_peer_self hp _)
    · have other : r ≠ p := fun e => notRest (e ▸ inRest)
      refine (ih hrest nodupRest inRest).trans ?_
      rw [c0_of_settles settles, meet_peer_other hp _ other]

theorem sweep_latched (s : State) (fate : Pos → PeerFate) (l : List Pos) :
    (s.sweep fate l).lpt.latched.peer = (s.lpt.latched.peer || l.any fun p => (fate p).resets) := by
  induction l generalizing s with
  | nil => exact (Bool.or_false _).symm
  | cons p rest ih =>
    refine (ih _).trans ?_
    rw [meet_latched, List.any_cons, Bool.or_assoc]

theorem sweep_entry (s : State) (fate : Pos → PeerFate) {p : Pos} (other : p ≠ s.own) :
    (s.sweep fate s.peerPositions).peer p = (fate p).entry s.c0 (s.peer p) :=
  sweep_peer (fun p => (mem_peerPositions s p).mp) (nodup_peerPositions s) ((mem_peerPositions s p).mpr other)

/-- An entry that is set anew latches PEER (05 R98). -/
theorem sweep_latches {s : State} {fate : Pos → PeerFate} {p : Pos} (other : p ≠ s.own)
    (reset : (fate p).resets = true) : (s.sweep fate s.peerPositions).lpt.latched.peer = true := by
  have some_reset : (s.peerPositions.any fun p => (fate p).resets) = true :=
    List.any_eq_true.mpr ⟨p, (mem_peerPositions s p).mpr other, reset⟩
  rw [sweep_latched, some_reset, Bool.or_true]

theorem sweep_osc_of_no_completion {s : State} {fate : Pos → PeerFate} {l : List Pos}
    (h : ∀ p ∈ l, (fate p).completes = false) : (s.sweep fate l).osc = s.osc := by
  induction l generalizing s with
  | nil => rfl
  | cons p rest ih =>
    obtain ⟨hp, hrest⟩ := List.forall_mem_cons.mp h
    exact (ih hrest).trans (meet_osc_of_no_completion hp)

theorem sweep_only_entries {s : State} {fate : Pos → PeerFate} {l : List Pos}
    (resets : ∀ p ∈ l, (fate p).resets = false) (completes : ∀ p ∈ l, (fate p).completes = false) :
    (s.sweep fate l).fpl = s.fpl ∧ (s.sweep fate l).osc = s.osc ∧ (s.sweep fate l).lpt = s.lpt := by
  induction l generalizing s with
  | nil => exact ⟨rfl, rfl, rfl⟩
  | cons p rest ih =>
    obtain ⟨resetsP, resetsRest⟩ := List.forall_mem_cons.mp resets
    obtain ⟨completesP, completesRest⟩ := List.forall_mem_cons.mp completes
    obtain ⟨pool, queues, port⟩ := meet_only_entry (s := s) (p := p) resetsP completesP
    obtain ⟨poolRest, queuesRest, portRest⟩ := ih (s := s.meet p (fate p)) resetsRest completesRest
    exact ⟨poolRest.trans pool, queuesRest.trans queues, portRest.trans port⟩

theorem sweep_frame {s : State} (placed : s.Placed) (fate : Pos → PeerFate) (l : List Pos) (f : FrameNo) :
    (s.sweep fate l).frame f = (s.frame f).sweep fate l := by
  induction l generalizing s with
  | nil => rfl
  | cons p rest ih =>
    refine (ih (placed_meet placed (fate p))).trans ?_
    rw [meet_frame placed]
    rfl

theorem any_congr_of_mem {α : Type} {l : List α} {f g : α → Bool} (h : ∀ a ∈ l, f a = g a) : l.any f = l.any g := by
  rw [Bool.eq_iff_iff, List.any_eq_true, List.any_eq_true]
  exact exists_congr fun a => and_congr_right fun ha => by rw [h a ha]

/-- Once the frames to p have completed, those to the other peers are where they were. -/
theorem oscWithoutAll_cons {s t : State} {p : Pos} {l : List Pos} (first : t.osc = s.oscWithout p)
    (waits : ∀ r ∈ l, ∀ f, (t.frame f).queuedTo r = (s.frame f).queuedTo r) (notLater : p ∉ l) :
    t.oscWithoutAll l = s.oscWithoutAll (p :: l) := by
  have disjoint : ∀ r ∈ l, ∀ f, (s.frame f).queuedTo r = true → (s.frame f).queuedTo p = false := by
    intro r hr f waitsR
    refine Bool.eq_false_of_not_eq_true fun waitsP => notLater ?_
    rwa [Option.some.inj ((names_of_queuedTo waitsP).symm.trans (names_of_queuedTo waitsR))]
  have order : ∀ queue : List FrameNo, ∀ r ∈ l,
      (queue.filter (fun f => !(s.frame f).queuedTo p)).filter (fun f => (t.frame f).queuedTo r) =
        queue.filter (fun f => (s.frame f).queuedTo r) := by
    intro queue r hr
    rw [List.filter_filter]
    refine List.filter_congr fun f _ => ?_
    rw [waits r hr f]
    cases h : (s.frame f).queuedTo r with
    | false => rfl
    | true => rw [disjoint r hr f h]; rfl
  have left : ∀ queue : List FrameNo,
      (queue.filter (fun f => !(s.frame f).queuedTo p)).filter (fun f => !l.any fun r => (t.frame f).queuedTo r) =
        queue.filter (fun f => !(p :: l).any fun r => (s.frame f).queuedTo r) := by
    intro queue
    rw [List.filter_filter]
    refine List.filter_congr fun f _ => ?_
    rw [List.any_cons, Bool.not_or, Bool.and_comm, any_congr_of_mem fun r hr => waits r hr f]
  unfold State.oscWithoutAll
  simp only [first, State.oscWithout, left, List.flatMap_cons, List.append_assoc]
  congr 4
  exact List.flatMap_congr fun r hr => by rw [order _ r hr, order _ r hr]

/-- The queues of a state whose frames to the peers of a list wait as before. -/
theorem oscWithoutAll_congr {s t : State} {l : List Pos} (same : t.osc = s.osc)
    (waits : ∀ r ∈ l, ∀ f, (t.frame f).queuedTo r = (s.frame f).queuedTo r) :
    t.oscWithoutAll l = s.oscWithoutAll l := by
  have any : ∀ f, (l.any fun r => (t.frame f).queuedTo r) = l.any fun r => (s.frame f).queuedTo r :=
    fun f => any_congr_of_mem fun r hr => waits r hr f
  unfold State.oscWithoutAll
  simp only [same, any]
  congr 2
  exact List.flatMap_congr fun r hr => by simp only [waits r hr]

/-- The completions of a sweep come in its order, of each peer the URGENT queue first (01 R13). -/
theorem sweep_osc {s : State} (placed : s.Placed) (fate : Pos → PeerFate) {l : List Pos} (nodup : l.Nodup) :
    (s.sweep fate l).osc = s.oscWithoutAll (l.filter fun p => (fate p).completes) := by
  induction l generalizing s with
  | nil => simp [State.sweep, State.oscWithoutAll]
  | cons p rest ih =>
    obtain ⟨notRest, nodupRest⟩ := List.nodup_cons.mp nodup
    have waits : ∀ r ∈ rest.filter (fun p => (fate p).completes), ∀ f,
        ((s.meet p (fate p)).frame f).queuedTo r = (s.frame f).queuedTo r := fun r hr f => by
      rw [meet_frame placed]
      have other : r ≠ p := fun e => notRest (e ▸ (List.mem_filter.mp hr).1)
      exact queuedTo_record other _ _
    refine (ih (placed_meet placed (fate p)) nodupRest).trans ?_
    cases h : (fate p).completes with
    | false =>
      rw [List.filter_cons_of_neg (by simp only [h]; exact Bool.false_ne_true)]
      exact oscWithoutAll_congr (meet_osc_of_no_completion h) waits
    | true =>
      rw [List.filter_cons_of_pos (by exact h)]
      exact oscWithoutAll_cons (meet_osc placed h) waits fun later => notRest (List.mem_filter.mp later).1

/-! ## One record in a sweep -/

theorem sweep_of_unnamed {r : FrameRecord} {l : List Pos} (h : ∀ p ∈ l, r.names ≠ some p) (fate : Pos → PeerFate) :
    r.sweep fate l = r := by
  induction l with
  | nil => rfl
  | cons p rest ih =>
    obtain ⟨hp, hrest⟩ := List.forall_mem_cons.mp h
    rw [FrameRecord.sweep, List.foldl_cons, record_of_unnamed hp]
    exact ih hrest

/-- The sweep changes a record by the fate of the one peer it names. -/
theorem sweep_of_named {r : FrameRecord} {p : Pos} (h : r.names = some p) (fate : Pos → PeerFate) {l : List Pos}
    (nodup : l.Nodup) (mem : p ∈ l) : r.sweep fate l = (fate p).record p r := by
  induction l with
  | nil => cases mem
  | cons a rest ih =>
    obtain ⟨notRest, nodupRest⟩ := List.nodup_cons.mp nodup
    rw [FrameRecord.sweep, List.foldl_cons]
    rcases List.mem_cons.mp mem with rfl | inRest
    · refine sweep_of_unnamed (fun b hb e => ?_) fate
      rcases names_record (fate p) p r with none | same
      · cases none.symm.trans e
      · exact notRest (Option.some.inj (h.symm.trans (same.symm.trans e)) ▸ hb)
    · have other : r.names ≠ some a := fun e => notRest (Option.some.inj (h.symm.trans e) ▸ inRest)
      rw [record_of_unnamed other]
      exact ih nodupRest inRest

/-- A fate that neither sets the entry anew nor completes a frame leaves every record. -/
theorem record_of_untouched {fate : PeerFate} (resets : fate.resets = false) (completes : fate.completes = false)
    (p : Pos) (r : FrameRecord) : fate.record p r = r := by
  cases fate with
  | kept | counted => rfl
  | lost | reinitialised => cases resets
  | dismissed => cases completes

theorem dropSeq_of_not_waiting {r : FrameRecord} {p : Pos} (h : ¬ r.queuedTo p = true) : r.dropSeq p = r := by
  cases r with
  | queued q => exact dropSeq_of_unnamed fun names => h ((queuedTo_iff _ p).mpr ⟨q, rfl, names⟩)
  | _ => rfl

theorem record_of_not_waiting {r : FrameRecord} {p : Pos} (h : ¬ r.queuedTo p = true) (fate : PeerFate) :
    fate.record p r = if fate.resets then r.clearCredit p else r := by
  cases fate with
  | kept | counted => rfl
  | lost missed outcome => exact if_neg h
  | dismissed outcome => exact if_neg h
  | reinitialised => exact dropSeq_of_not_waiting (by rwa [queuedTo_clearCredit])

theorem clearCredits_of_named {r : FrameRecord} {p : Pos} {l : List Pos} (h : r.names = some p) (mem : p ∈ l) :
    r.clearCredits l = r.clearCredit p := by
  have listed : (l.any fun p => r.names == some p) = true := List.any_eq_true.mpr ⟨p, mem, beq_iff_eq.mpr h⟩
  cases r with
  | arrived i => rw [clearCredit_arrived, FrameRecord.clearCredits, if_pos (by exact listed), if_pos (by exact h)]
  | held i => rw [clearCredit_held, FrameRecord.clearCredits, if_pos (by exact listed), if_pos (by exact h)]
  | _ => rfl

theorem clearCredits_of_unnamed {r : FrameRecord} {l : List Pos} (h : ∀ p ∈ l, r.names ≠ some p) :
    r.clearCredits l = r := by
  have unlisted : ¬ (l.any fun p => r.names == some p) = true := by simpa using h
  cases r with
  | arrived i => rw [FrameRecord.clearCredits, if_neg (by exact unlisted)]
  | held i => rw [FrameRecord.clearCredits, if_neg (by exact unlisted)]
  | _ => rfl

/-- A record whose peer's fate changes nothing while it waits loses credit-bearing at most. -/
theorem sweep_eq_clearCredits {r : FrameRecord} {fate : Pos → PeerFate} {l : List Pos} (nodup : l.Nodup)
    (waiting : ∀ p ∈ l, r.queuedTo p = true → (fate p).record p r = r) :
    r.sweep fate l = r.clearCredits (l.filter fun p => (fate p).resets) := by
  by_cases named : ∃ p ∈ l, r.names = some p
  · obtain ⟨p, mem, names⟩ := named
    rw [sweep_of_named names fate nodup mem]
    by_cases waits : r.queuedTo p = true
    · rw [waiting p mem waits]
      obtain ⟨q, rfl, -⟩ := (queuedTo_iff r p).mp waits
      rfl
    · rw [record_of_not_waiting waits]
      by_cases resets : (fate p).resets = true
      · rw [if_pos resets, clearCredits_of_named names (List.mem_filter.mpr ⟨mem, resets⟩)]
      · rw [if_neg resets, clearCredits_of_unnamed]
        intro a ha e
        obtain rfl : p = a := Option.some.inj (names.symm.trans e)
        exact resets (List.mem_filter.mp ha).2
  · have unnamed : ∀ p ∈ l, r.names ≠ some p := fun p mem names => named ⟨p, mem, names⟩
    rw [sweep_of_unnamed unnamed, clearCredits_of_unnamed fun p mem => unnamed p (List.mem_filter.mp mem).1]

/-! ## A field's end as a sweep -/

/-- An act that gives each peer its fate by what the entry and the Round Controller were before it is a sweep. -/
theorem foldl_eq_sweep {s : State} {act : State → Pos → State} {fate : Pos → PeerFate}
    (meets : ∀ t p, p ≠ s.own → t.rdc = s.rdc → t.peer p = s.peer p → act t p = t.meet p (fate p)) :
    s.peerPositions.foldl act s = s.sweep fate s.peerPositions := by
  have step : ∀ (l : List Pos) (t : State), l.Nodup → (∀ p ∈ l, p ≠ s.own) → Settles s t →
      (∀ p ∈ l, t.peer p = s.peer p) → l.foldl act t = t.sweep fate l := by
    intro l
    induction l with
    | nil => exact fun t _ _ _ _ => rfl
    | cons p rest ih =>
      intro t nodup peers settles same
      obtain ⟨notRest, nodupRest⟩ := List.nodup_cons.mp nodup
      obtain ⟨hp, hrest⟩ := List.forall_mem_cons.mp peers
      rw [List.foldl_cons, meets t p hp (rdc_of_settles settles) (same p List.mem_cons_self)]
      refine ih _ nodupRest hrest (settles.trans (settles_meet t p (fate p))) fun r hr => ?_
      have other : r ≠ p := fun e => notRest (e ▸ hr)
      rw [meet_peer_other ((own_of_settles settles).symm ▸ hp) _ other]
      exact same r (List.mem_cons_of_mem p hr)
  exact step _ s (nodup_peerPositions s) (fun p => (mem_peerPositions s p).mp) (Settles.refl s) fun p _ => rfl

/-- The cells of a field that this station does not drive are those that the others leave. -/
theorem getLsbD_joined {own p : Pos} (h : p ≠ own) (others : Cells) (drives : Bool) :
    (others &&& ownCell drives own).getLsbD p.val = others.getLsbD p.val := by
  have apart : p.val ≠ own.val := fun e => h (Fin.ext e)
  have released : (ownCell drives own).getLsbD p.val = true := by
    cases drives with
    | false => simp only [ownCell, Bool.false_eq_true, if_false, BitVec.getLsbD_allOnes, p.isLt, decide_true]
    | true =>
      have shifted : p.val < own.val ∨ ¬ p.val - own.val = 0 := by omega
      simpa [ownCell] using shifted
  rw [BitVec.getLsbD_and, released, Bool.and_true]

theorem cellLow_joined {own p : Pos} (h : p ≠ own) (others : Cells) (drives : Bool) :
    cellLow (others &&& ownCell drives own) p = !others.getLsbD p.val := by
  rw [cellLow, getLsbD_joined h]

theorem sameElsewhere_withRdc (s : State) (r : Rdc) : s.SameElsewhere (s.withRdc r) := by
  simp [State.SameElsewhere]

theorem sameElsewhere_rise (s : State) (clocking drives : Bool) (sample : Level) :
    s.SameElsewhere (s.rise clocking drives sample) := by
  simp [State.SameElsewhere, State.rise]

end Sys2Proof.Laws
end

section
/-!
SUPPORT. The end of the PRESENCE field (05 R84, R85, 06 R112): presence counting at a MEMBER as a sweep, and the record
alone at a station that joins or observes.
-/

namespace Sys2Proof.Machine

/-- What presence counting does with the peer of an entry whose PRESENCE cell reads LOW, or HIGH (05 R84, R85). -/
def PeerEntry.presenceFate (e : PeerEntry) (low : Bool) : PeerFate :=
  if !e.present then .kept
  else if low then .counted 0
  else if Config.maxMissed ≤ e.missed + 1 then .lost Config.maxMissed .peerLost
  else .counted (e.missed + 1)

/-- The station with the PRESENCE record kept, and the JOIN field next (06 R112). -/
def State.presenceKept (s : State) (others : Cells) : State :=
  s.withRdc { s.rdc with presence := others &&& s.presenceOut, stage := .join }

/-- The rise of the last PRESENCE cell. -/
def State.risePresence (s t : State) (others : Cells) : State :=
  t.rise s.clocks (s.drivesLine && s.own == 15) (levelOf ((others &&& s.presenceOut).getLsbD 15))

/-- The fates of the peers at the end of the PRESENCE field. -/
def State.presenceFates (s : State) (others : Cells) (p : Pos) : PeerFate :=
  (s.peer p).presenceFate (!others.getLsbD p.val)

end Sys2Proof.Machine

namespace Sys2Proof.Laws

open Sys2Proof.Machine

/-! ## The fate of one peer -/

theorem presenceFate_absent {e : PeerEntry} (absent : e.present = false) (low : Bool) :
    e.presenceFate low = .kept := by
  simp [PeerEntry.presenceFate, absent]

theorem presenceFate_low {e : PeerEntry} (present : e.present = true) : e.presenceFate true = .counted 0 := by
  simp [PeerEntry.presenceFate, present]

theorem presenceFate_missed {e : PeerEntry} (present : e.present = true) (below : e.missed + 1 < 3) :
    e.presenceFate false = .counted (e.missed + 1) := by
  have notLast : ¬ Config.maxMissed ≤ e.missed + 1 := not_le.mpr below
  simp [PeerEntry.presenceFate, present, notLast]

theorem presenceFate_lost {e : PeerEntry} (present : e.present = true) (last : 3 ≤ e.missed + 1) :
    e.presenceFate false = .lost 3 .peerLost := by
  simp [PeerEntry.presenceFate, present, Config.maxMissed, last]

/-- Presence counting sets an entry anew, and completes frames, exactly where it loses the peer. -/
theorem presenceFate_loses (e : PeerEntry) (low : Bool) :
    (e.presenceFate low).resets = (e.present && !low && decide (3 ≤ e.missed + 1)) ∧
    (e.presenceFate low).completes = (e.present && !low && decide (3 ≤ e.missed + 1)) := by
  cases present : e.present with
  | false =>
    rw [presenceFate_absent present]
    exact ⟨rfl, rfl⟩
  | true =>
    cases low with
    | true =>
      rw [presenceFate_low present]
      exact ⟨rfl, rfl⟩
    | false =>
      by_cases last : 3 ≤ e.missed + 1
      · rw [presenceFate_lost present last, decide_eq_true last]
        exact ⟨rfl, rfl⟩
      · rw [presenceFate_missed present (not_le.mp last), decide_eq_false last]
        exact ⟨rfl, rfl⟩

theorem countPresence_eq_meet (cells : Cells) (s : State) (p : Pos) :
    s.countPresence cells p = s.meet p ((s.peer p).presenceFate (cellLow cells p)) := by
  unfold State.countPresence PeerEntry.presenceFate
  dsimp only
  split
  · rfl
  · split
    · rfl
    · split <;> rfl

/-! ## The stations that keep the record -/

/-- The cells of the PRESENCE field as the station reads them (06 R112). -/
theorem presenceCells_eq (s : State) (others : Cells) : others &&& s.presenceOut =
    if s.drivesLine then others &&& ~~~((1 : Cells) <<< s.own.val) else others := by
  rw [State.presenceOut, ownCell]
  split
  · rfl
  · exact BitVec.and_allOnes

section
variable {s : State} {others : Cells}

theorem presenceFieldEnd_due (hr : s.resetAsserted = false) (stage : s.rdc.stage = .presence)
    (reads : s.readsLine = true) : exec (.presenceFieldEnd others) s = .next (s.endPresence others) :=
  whenDue_due hr (by simp [reads, stage])

/-- Where the station does not observe, or its own cell reads HIGH, it goes on to the JOIN field. -/
theorem endPresence_eq (goesOn : s.isObserving = false ∨ others.getLsbD s.own.val = true) :
    s.endPresence others = s.risePresence
      (if s.isMember then s.peerPositions.foldl (State.countPresence (others &&& s.presenceOut)) (s.presenceKept others)
       else s.presenceKept others) others := by
  have goesOn : ¬ (s.isObserving && cellLow (others &&& s.presenceOut) s.own) = true := by
    rcases goesOn with no | high
    · simp [no]
    · cases observes : s.isObserving with
      | false => simp
      | true =>
        have released : s.drivesLine = false := by
          have : s.rdc.participation = .observing := by simpa [State.isObserving] using observes
          simp [State.drivesLine, this]
        simp [presenceCells_eq, released, cellLow, high]
  rw [State.endPresence, if_neg goesOn]
  rfl

/-- At a MEMBER the end of the field is a sweep over the peers, with the record kept (06 R112). -/
theorem endPresence_member (member : s.rdc.participation = .member) : s.endPresence others =
    s.risePresence ((s.presenceKept others).sweep (s.presenceFates others) s.peerPositions) others := by
  rw [endPresence_eq (.inl (by simp [State.isObserving, member])), if_pos (by simp [State.isMember, member])]
  refine congrArg (fun t => s.risePresence t others) (foldl_eq_sweep fun t p other _ same => ?_)
  have other : p ≠ s.own := other
  rw [countPresence_eq_meet, State.presenceOut, cellLow_joined other, same]
  rfl

/-- A JOINING or OBSERVING station that goes on keeps the record and counts nothing. -/
theorem endPresence_notMember (goesOn : s.isObserving = false ∨ others.getLsbD s.own.val = true)
    (other : s.isMember = false) : s.endPresence others = s.risePresence (s.presenceKept others) others := by
  rw [endPresence_eq goesOn, if_neg (by simp [other])]

end

/-! ## The statement -/

/-- The peers that presence counting loses, as the statement lists them. -/
theorem presenceFates_loses (s : State) (others : Cells) (l : List Pos) :
    let lost := l.filter fun p => (s.peer p).present && others.getLsbD p.val && decide (3 ≤ (s.peer p).missed + 1)
    (l.filter fun p => (s.presenceFates others p).resets) = lost ∧
    (l.filter fun p => (s.presenceFates others p).completes) = lost := by
  refine ⟨List.filter_congr fun p _ => ?_, List.filter_congr fun p _ => ?_⟩
  · rw [State.presenceFates, (presenceFate_loses _ _).1, Bool.not_not]
  · rw [State.presenceFates, (presenceFate_loses _ _).2, Bool.not_not]

theorem presenceFates_untouched {s : State} {others : Cells} {p : Pos}
    (h : ¬ ((s.peer p).present = true ∧ others.getLsbD p.val = true ∧ 3 ≤ (s.peer p).missed + 1)) :
    (s.presenceFates others p).resets = false ∧ (s.presenceFates others p).completes = false := by
  obtain ⟨resets, completes⟩ := presenceFate_loses (s.peer p) (!others.getLsbD p.val)
  rw [State.presenceFates, resets, completes, and_self, Bool.eq_false_iff]
  simpa [and_assoc] using h

theorem mem_lost_iff {s : State} {others : Cells} {p : Pos} :
    (p ∈ s.peerPositions.filter fun p =>
      (s.peer p).present && others.getLsbD p.val && decide (3 ≤ (s.peer p).missed + 1)) ↔
    p ≠ s.own ∧ (s.peer p).present = true ∧ others.getLsbD p.val = true ∧ 3 ≤ (s.peer p).missed + 1 := by
  simp only [List.mem_filter, mem_peerPositions, Bool.and_eq_true, decide_eq_true_eq, and_assoc]

/-- WDAT at the end of the field: the cell of position 15, as this station drives it or the others leave it. -/
theorem wdat_risePresence (s t : State) (others : Cells) : (s.risePresence t others).lif.wdat =
    if s.drivesLine = true ∧ s.own = 15 then .low else if others.getLsbD 15 then .high else .low := by
  have wdat : (s.risePresence t others).lif.wdat = if (s.drivesLine && s.own == 15) = true then .low
    else levelOf ((others &&& s.presenceOut).getLsbD 15) := rfl
  simp only [wdat, Bool.and_eq_true, beq_iff_eq]
  by_cases own : s.own = 15
  · cases drives : s.drivesLine with
    | true => rw [if_pos ⟨rfl, own⟩, if_pos ⟨rfl, own⟩]
    | false =>
      rw [if_neg (by simp), if_neg (by simp), presenceCells_eq, drives, if_neg Bool.false_ne_true, levelOf]
  · have cell := getLsbD_joined (Ne.symm own) others s.drivesLine
    rw [if_neg fun h => own h.2, if_neg fun h => own h.2, levelOf, State.presenceOut]
    exact congrArg (fun bit => if bit then Level.high else Level.low) cell

/-- A station that joins, or observes and reads its own cell HIGH, keeps the record alone (06 R112). -/
theorem presenceFieldEnd_recordAlone {s : State} {others : Cells} (hr : s.resetAsserted = false)
    (stage : s.rdc.stage = .presence) (keeps : s.rdc.participation = .joining ∨
      (s.rdc.participation = .observing ∧ others.getLsbD s.own.val = true)) :
    exec (.presenceFieldEnd others) s = .next (s.risePresence (s.presenceKept others) others) ∧
    (s.drivesLine = true ↔ s.rdc.participation = .joining) := by
  have due : s.readsLine = true → s.isObserving = false ∨ others.getLsbD s.own.val = true → s.isMember = false →
      exec (.presenceFieldEnd others) s = .next (s.risePresence (s.presenceKept others) others) :=
    fun reads goesOn other =>
      (presenceFieldEnd_due hr stage reads).trans (congrArg _ (endPresence_notMember goesOn other))
  rcases keeps with joining | ⟨observing, high⟩
  · refine ⟨due ?_ (.inl ?_) ?_, ?_⟩ <;>
      simp [State.readsLine, State.isObserving, State.isMember, State.drivesLine, joining]
  · refine ⟨due ?_ (.inr high) ?_, ?_⟩ <;>
      simp [State.readsLine, State.isMember, State.drivesLine, observing]

/-- The own PRESENCE cell of an OBSERVING station, read LOW (06 R103; log 30). -/
theorem presenceFieldEnd_ownCellLow {s : State} {others : Cells} (hr : s.resetAsserted = false)
    (stage : s.rdc.stage = .presence) (observing : s.rdc.participation = .observing)
    (low : others.getLsbD s.own.val = false) : exec (.presenceFieldEnd others) s = exec .ownPresenceCellLow s := by
  have observes : s.isObserving = true := by simp [State.isObserving, observing]
  have silent : s.drivesLine = false := by simp [State.drivesLine, observing]
  have ownLow : (s.isObserving && cellLow (others &&& s.presenceOut) s.own) = true := by
    rw [observes, presenceCells_eq, silent, if_neg Bool.false_ne_true, cellLow, low]
    rfl
  have conflict : s.endPresence others = s.conflictAtCell := by rw [State.endPresence, if_pos ownLow]
  rw [presenceFieldEnd_due hr stage (by simp [State.readsLine, observing]), conflict]
  exact (whenDue_due hr (by simp [observes, stage])).symm

/-- The queues and records after a MEMBER's count, where frames are in their places (01 R13, R18). -/
theorem presenceSweep_frames {s : State} (placed : s.Placed) (others : Cells) :
    let t := (s.presenceKept others).sweep (s.presenceFates others) s.peerPositions
    let lost := s.peerPositions.filter fun p =>
      (s.peer p).present && others.getLsbD p.val && decide (3 ≤ (s.peer p).missed + 1)
    t.osc = s.oscWithoutAll lost ∧
    (∀ f q p, s.frame f = .queued q → q.peer = some p → p ∈ lost →
      t.frame f = .done (q.doneRecord .peerLost q.attempts)) ∧
    ∀ f, (lost.any fun p => (s.frame f).queuedTo p) = false → t.frame f = (s.frame f).clearCredits lost := by
  intro t lost
  have nodup := nodup_peerPositions s
  obtain ⟨resets, completes⟩ := presenceFates_loses s others s.peerPositions
  have frame : ∀ f, t.frame f = (s.frame f).sweep (s.presenceFates others) s.peerPositions :=
    sweep_frame (s := s.presenceKept others) placed _ _
  refine ⟨?_, fun f q p was names mem => ?_, fun f kept => ?_⟩
  · refine (sweep_osc (s := s.presenceKept others) placed _ nodup).trans ?_
    rw [completes]
    rfl
  · obtain ⟨other, present, high, last⟩ := mem_lost_iff.mp mem
    have inList : p ∈ s.peerPositions := (mem_peerPositions s p).mpr other
    rw [frame, was, sweep_of_named (r := .queued q) names _ nodup inList, State.presenceFates, high, Bool.not_true,
      presenceFate_lost present last]
    exact if_pos ((queuedTo_iff _ p).mpr ⟨q, rfl, names⟩)
  · refine (frame f).trans ((sweep_eq_clearCredits nodup fun p mem waits => ?_).trans (congrArg _ resets))
    have notLost : p ∉ lost := fun h => List.any_eq_false.mp kept p h waits
    obtain ⟨noReset, noCompletion⟩ := presenceFates_untouched fun loses =>
      notLost (mem_lost_iff.mpr ⟨(mem_peerPositions s p).mp mem, loses⟩)
    exact record_of_untouched noReset noCompletion p _

/-- Settles O30: presence counting at a MEMBER, the record elsewhere, and the conflict at the own cell. -/
theorem presenceFieldEnd : Obligations.PresenceFieldEnd := by
  intro s others hr stage
  refine ⟨fun member => ?_, fun keeps => ?_, presenceFieldEnd_ownCellLow hr stage⟩
  · have reads : s.readsLine = true := by simp [State.readsLine, member]
    have drives : s.drivesLine = true := by simp [State.drivesLine, member]
    have settles := settles_sweep (s.presenceKept others) (s.presenceFates others) s.peerPositions
    refine ⟨_, (presenceFieldEnd_due hr stage reads).trans (congrArg _ (endPresence_member member)),
      (rdc_of_settles settles).trans ?_, ?_, (fen_of_settles settles :), fun p other => ?_, fun none_lost => ?_, ?_⟩
    · rw [State.presenceKept, presenceCells_eq, if_pos drives]
      rfl
    · exact sameElsewhere_trans (sameElsewhere_withRdc s _)
        (sameElsewhere_trans (sameElsewhere_of_settles settles) (sameElsewhere_rise _ _ _ _))
    · have entry := sweep_entry (s.presenceKept others) (s.presenceFates others) other
      have fate : s.presenceFates others p = (s.peer p).presenceFate (!others.getLsbD p.val) := rfl
      refine ⟨fun absent => ?_, fun present low => ?_, fun present high below => ?_, fun present high last => ?_⟩
      · rw [fate, presenceFate_absent absent] at entry
        exact entry
      · rw [fate, low, Bool.not_false, presenceFate_low present] at entry
        exact entry
      · rw [fate, high, Bool.not_true, presenceFate_missed present below] at entry
        exact entry
      · rw [high, Bool.not_true, presenceFate_lost present last] at fate
        rw [fate] at entry
        exact ⟨entry, sweep_latches (s := s.presenceKept others) other (by rw [fate]; rfl)⟩
    · have untouched : ∀ p ∈ s.peerPositions,
          (s.presenceFates others p).resets = false ∧ (s.presenceFates others p).completes = false :=
        fun p mem => presenceFates_untouched fun ⟨present, high, last⟩ =>
          not_le.mpr (none_lost p ((mem_peerPositions s p).mp mem) present high) last
      exact sweep_only_entries (fun p mem => (untouched p mem).1) fun p mem => (untouched p mem).2
    · intro lost toLost placed
      obtain ⟨queues, completed, remaining⟩ := presenceSweep_frames placed others
      refine ⟨queues, completed, fun f kept => (remaining f kept).trans ?_⟩
      cases s.frame f <;> rfl
  · obtain ⟨next, drives⟩ := presenceFieldEnd_recordAlone hr stage keeps
    refine ⟨_, next, ?_, ?_, rfl, ⟨rfl, rfl, rfl, rfl, rfl, rfl, rfl, rfl⟩⟩
    · simp only [wdat_risePresence, drives]
    · show (s.presenceKept others).rdc = _
      simp only [State.presenceKept, presenceCells_eq, drives, withRdc_rdc]

end Sys2Proof.Laws
end

section
/-!
SUPPORT. The end of the JOIN field (05 R89 to R91, 06 R113), by the participation state: the joins that a MEMBER reads
as a sweep over the peers.
-/

namespace Sys2Proof.Machine

/-- The fates of the peers at a MEMBER's JOIN field (05 R89). -/
def joinFates (others : Cells) (p : Pos) : PeerFate := if others.getLsbD p.val then .kept else .reinitialised

/-- The record of the same frame once the entries of the peers of a list are reinitialised (01 R13, R18). -/
def FrameRecord.reinitialised (r : FrameRecord) (l : List Pos) : FrameRecord :=
  match r with
  | .queued q => .queued (if l.any (fun p => q.peer == some p) then { q with openSeq := none } else q)
  | .free | .filling | .sending _ _ | .done _ | .arrived _ | .held _ => r.clearCredits l

/-- The rise of the last JOIN cell, with the CLAIM field next. -/
def State.riseJoin (s t : State) (others : Cells) : State :=
  (t.withRdc { t.rdc with stage := .claim }).rise s.clocks (s.isJoining && s.own == 15)
    (levelOf ((others &&& s.joinOut).getLsbD 15))

end Sys2Proof.Machine

namespace Sys2Proof.Laws

open Sys2Proof.Machine

/-! ## The stations, by their participation -/

section
variable {s : State} {others : Cells}

theorem joinFieldEnd_due (hr : s.resetAsserted = false) (stage : s.rdc.stage = .join) (reads : s.readsLine = true) :
    exec (.joinFieldEnd others) s = .next (s.endJoin others) :=
  whenDue_due hr (by simp [reads, stage])

theorem joinFieldEnd_observing (hr : s.resetAsserted = false) (stage : s.rdc.stage = .join)
    (observing : s.rdc.participation = .observing) :
    exec (.joinFieldEnd others) s = .next (s.riseJoin s others) := by
  have acts : s.endJoin others = s.riseJoin s others := by
    simp only [State.endJoin, State.riseJoin, observing]
  rw [joinFieldEnd_due hr stage (by simp [State.readsLine, observing]), acts]

theorem joinFieldEnd_member (hr : s.resetAsserted = false) (stage : s.rdc.stage = .join)
    (member : s.rdc.participation = .member) :
    exec (.joinFieldEnd others) s = .next (s.riseJoin (s.memberJoins (others &&& s.joinOut)) others) := by
  have acts : s.endJoin others = s.riseJoin (s.memberJoins (others &&& s.joinOut)) others := by
    simp only [State.endJoin, State.riseJoin, member]
  rw [joinFieldEnd_due hr stage (by simp [State.readsLine, member]), acts]

theorem joinFieldEnd_joining (hr : s.resetAsserted = false) (stage : s.rdc.stage = .join)
    (joining : s.rdc.participation = .joining) :
    exec (.joinFieldEnd others) s = .next (s.riseJoin (s.ownJoin (others &&& s.joinOut)) others) := by
  have acts : s.endJoin others = s.riseJoin (s.ownJoin (others &&& s.joinOut)) others := by
    simp only [State.endJoin, State.riseJoin, joining]
  rw [joinFieldEnd_due hr stage (by simp [State.readsLine, joining]), acts]

theorem cellLow_join (s : State) (others : Cells) {p : Pos} (other : p ≠ s.own) :
    cellLow (others &&& s.joinOut) p = !others.getLsbD p.val := cellLow_joined other others s.isJoining

theorem peerPositions_of_settles {t : State} (h : Settles s t) : t.peerPositions = s.peerPositions := by
  simp only [State.peerPositions, own_of_settles h]

theorem withRdc_of_same {r : Rdc} (h : s.rdc = r) : s.withRdc r = s := by
  subst h
  rfl

/-! ## The joins that a MEMBER reads -/

theorem processJoins_eq_sweep (s : State) (others : Cells) :
    s.peerPositions.foldl (State.processJoin (others &&& s.joinOut)) s =
      s.sweep (joinFates others) s.peerPositions := by
  refine foldl_eq_sweep fun t p other _ _ => ?_
  rw [State.processJoin, cellLow_join s others other, joinFates]
  cases others.getLsbD p.val <;> rfl

theorem joinFates_low {p : Pos} (low : others.getLsbD p.val = false) : joinFates others p = .reinitialised := by
  rw [joinFates, low, if_neg Bool.false_ne_true]

theorem joinFates_high {p : Pos} (high : others.getLsbD p.val = true) : joinFates others p = .kept := by
  rw [joinFates, if_pos high]

theorem joinFates_completes (others : Cells) (p : Pos) : (joinFates others p).completes = false := by
  rw [joinFates]
  split <;> rfl

theorem joinFates_resets (others : Cells) (p : Pos) : (joinFates others p).resets = !others.getLsbD p.val := by
  cases h : others.getLsbD p.val with
  | false => rw [joinFates_low h]; rfl
  | true => rw [joinFates_high h]; rfl

/-- A peer is unexpected after the joins exactly where it was before them: it did not drive JOIN (05 R91). -/
theorem unexpected_joinSweep (s : State) (others : Cells) {p : Pos} (other : p ≠ s.own) :
    (s.sweep (joinFates others) s.peerPositions).unexpected (others &&& s.joinOut) p = s.unexpected others p := by
  rw [State.unexpected, State.unexpected, cellLow_join s others other,
    rdc_of_settles (settles_sweep s (joinFates others) s.peerPositions)]
  cases high : others.getLsbD p.val with
  | false => simp only [cellLow, high, Bool.not_false, Bool.not_true, Bool.and_false, Bool.false_and]
  | true =>
    rw [sweep_entry s (joinFates others) other, joinFates_high high]
    simp only [cellLow, high, PeerFate.entry]

theorem unexpected_iff (s : State) (others : Cells) : (s.peerPositions.any (s.unexpected others)) = true ↔
    ∃ p, p ≠ s.own ∧ s.rdc.presence.getLsbD p.val = false ∧ others.getLsbD p.val = true ∧
      (s.peer p).present = false := by
  simp only [List.any_eq_true, mem_peerPositions, State.unexpected, cellLow, Bool.and_eq_true, Bool.not_not,
    Bool.not_eq_true', and_assoc]

/-- The joins of a MEMBER are a sweep, and the rejoin request is set on an unexpected member (05 R89, R91). -/
theorem memberJoins_eq (s : State) (others : Cells) : s.memberJoins (others &&& s.joinOut) =
    (s.sweep (joinFates others) s.peerPositions).withRdc
      { s.rdc with rejoin := s.rdc.rejoin || s.peerPositions.any (s.unexpected others) } := by
  have settles := settles_sweep s (joinFates others) s.peerPositions
  have found : (s.peerPositions.any fun p =>
      (s.sweep (joinFates others) s.peerPositions).unexpected (others &&& s.joinOut) p) =
      s.peerPositions.any (s.unexpected others) :=
    any_congr_of_mem fun p mem => unexpected_joinSweep s others ((mem_peerPositions s p).mp mem)
  rw [State.memberJoins, processJoins_eq_sweep]
  dsimp only
  rw [peerPositions_of_settles settles, rdc_of_settles settles]
  cases unexpected : s.peerPositions.any (s.unexpected others) with
  | true => rw [if_pos (found.trans unexpected), Bool.or_true]
  | false =>
    rw [if_neg (by rw [found, unexpected]; exact Bool.false_ne_true), Bool.or_false]
    exact (withRdc_of_same (rdc_of_settles settles)).symm

theorem not_queuedTo_of_not_queued {r : FrameRecord} (h : ∀ q, r ≠ .queued q) (p : Pos) : ¬ r.queuedTo p = true :=
  fun waits => by
    obtain ⟨q, was, -⟩ := (queuedTo_iff r p).mp waits
    exact h q was

theorem reinitialised_queued (q : Posted) (l : List Pos) : (FrameRecord.queued q).reinitialised l =
    .queued (if l.any (fun p => q.peer == some p) then { q with openSeq := none } else q) := rfl

theorem reinitialised_of_not_queued {r : FrameRecord} (h : ∀ q, r ≠ .queued q) (l : List Pos) :
    r.reinitialised l = r.clearCredits l := by
  cases r with
  | queued q => exact absurd rfl (h q)
  | _ => rfl

/-- A record after the joins of a MEMBER: reinitialised for the peers that drove JOIN. -/
theorem sweep_joinFates (r : FrameRecord) (others : Cells) {l : List Pos} (nodup : l.Nodup) :
    r.sweep (joinFates others) l = r.reinitialised (l.filter fun p => !others.getLsbD p.val) := by
  have reset : (l.filter fun p => (joinFates others p).resets) = l.filter fun p => !others.getLsbD p.val :=
    List.filter_congr fun p _ => joinFates_resets others p
  by_cases queued : ∃ q, r = .queued q
  · obtain ⟨q, rfl⟩ := queued
    by_cases joined : ∃ p ∈ l.filter (fun p => !others.getLsbD p.val), q.peer = some p
    · obtain ⟨p, mem, names⟩ := joined
      obtain ⟨inList, low⟩ := List.mem_filter.mp mem
      have listed : ((l.filter fun p => !others.getLsbD p.val).any fun p => q.peer == some p) = true :=
        List.any_eq_true.mpr ⟨p, mem, beq_iff_eq.mpr names⟩
      rw [sweep_of_named (r := .queued q) names _ nodup inList, joinFates_low ((Bool.not_eq_true' _).to_iff.mp low),
        reinitialised_queued, if_pos listed]
      exact (dropSeq_queued q p).trans (congrArg _ (if_pos names))
    · have notJoined : ∀ p ∈ l, q.peer = some p → others.getLsbD p.val = true := fun p mem names => by
        by_contra high
        exact joined ⟨p, List.mem_filter.mpr ⟨mem, by simpa using high⟩, names⟩
      rw [reinitialised_queued, sweep_eq_clearCredits nodup fun p mem waits => ?_, if_neg fun listed => ?_]
      · rfl
      · obtain ⟨p, mem, names⟩ := List.any_eq_true.mp listed
        exact joined ⟨p, mem, beq_iff_eq.mp names⟩
      · rw [joinFates_high (notJoined p mem (names_of_queuedTo waits))]
        rfl
  · have notQueued : ∀ q, r ≠ .queued q := fun q was => queued ⟨q, was⟩
    rw [reinitialised_of_not_queued notQueued, ← reset]
    exact sweep_eq_clearCredits nodup fun p _ waits => absurd waits (not_queuedTo_of_not_queued notQueued p)

end

theorem sameElsewhere_riseJoin (s t : State) (others : Cells) : t.SameElsewhere (s.riseJoin t others) :=
  sameElsewhere_trans (sameElsewhere_withRdc t _) (sameElsewhere_rise _ _ _ _)

/-- Settles O31: the joins of a MEMBER as a sweep, and the field's end at an OBSERVING station. -/
theorem joinFieldEndAtMemberAndObserver : Obligations.JoinFieldEndAtMemberAndObserver := by
  intro s others hr stage
  refine ⟨fun observing => ?_, fun member => ?_⟩
  · exact ⟨_, joinFieldEnd_observing hr stage observing, rfl, rfl, ⟨rfl, rfl, rfl, rfl, rfl, rfl, rfl, rfl⟩⟩
  · have settles := settles_sweep s (joinFates others) s.peerPositions
    refine ⟨_, joinFieldEnd_member hr stage member, ?_⟩
    rw [memberJoins_eq]
    refine ⟨fun p other => ⟨fun low => ⟨?_, ?_⟩, fun high => ?_⟩, ?_, rfl, ?_, (fen_of_settles settles :), ?_, ?_⟩
    · refine (sweep_entry s (joinFates others) other).trans ?_
      rw [joinFates_low low]
      rfl
    · exact sweep_latches (s := s) other (by rw [joinFates_low low]; rfl)
    · refine (sweep_entry s (joinFates others) other).trans ?_
      rw [joinFates_high high]
      rfl
    · exact (Bool.or_eq_true _ _).to_iff.trans (or_congr_right (unexpected_iff s others))
    · exact sweep_osc_of_no_completion fun p _ => joinFates_completes others p
    · exact sameElsewhere_trans (sameElsewhere_of_settles settles)
        (sameElsewhere_trans (sameElsewhere_withRdc _ _) (sameElsewhere_riseJoin s _ others))
    · intro joined ofJoined placed f
      refine (sweep_frame placed (joinFates others) s.peerPositions f).trans ?_
      refine (sweep_joinFates (s.frame f) others (nodup_peerPositions s)).trans ?_
      cases s.frame f <;> rfl

end Sys2Proof.Laws
end

section
/-!
SUPPORT. The station's own join round (05 R94, R95): a sweep that sets every entry from the PRESENCE and JOIN fields.
-/

namespace Sys2Proof.Machine

/-- The peer is seen in the PRESENCE or the JOIN field (05 R94). -/
def State.sees (s : State) (others : Cells) (p : Pos) : Bool :=
  !s.rdc.presence.getLsbD p.val || !others.getLsbD p.val

/-- The fates of the peers in the station's own join round (05 R94). -/
def State.ownJoinFates (s : State) (others : Cells) (p : Pos) : PeerFate :=
  if s.sees others p then .reinitialised
  else if (s.peer p).present then .lost 0 (if s.rdc.joinFromMember then .peerLost else .peerAbsent)
  else .dismissed .peerAbsent

end Sys2Proof.Machine

namespace Sys2Proof.Laws

open Sys2Proof.Machine

section
variable {s : State} {others : Cells} {p : Pos}

/-! ## The fate of one peer -/

theorem sees_iff : s.sees others p = true ↔
    s.rdc.presence.getLsbD p.val = false ∨ others.getLsbD p.val = false := by
  rw [State.sees, Bool.or_eq_true, Bool.not_eq_true', Bool.not_eq_true']

theorem ownJoinFates_seen (seen : s.sees others p = true) : s.ownJoinFates others p = .reinitialised := if_pos seen

theorem ownJoinFates_lost (unseen : s.sees others p = false) (present : (s.peer p).present = true) :
    s.ownJoinFates others p = .lost 0 (if s.rdc.joinFromMember then .peerLost else .peerAbsent) := by
  rw [State.ownJoinFates, unseen, if_neg Bool.false_ne_true, if_pos present]

theorem ownJoinFates_absent (unseen : s.sees others p = false) (absent : (s.peer p).present = false) :
    s.ownJoinFates others p = .dismissed .peerAbsent := by
  rw [State.ownJoinFates, unseen, if_neg Bool.false_ne_true, absent, if_neg Bool.false_ne_true]

/-- The own join round sets an entry anew where the peer is seen or was PRESENT, and completes the frames to a peer
that is not seen. -/
theorem ownJoinFates_does (s : State) (others : Cells) (p : Pos) :
    (s.ownJoinFates others p).resets = (s.sees others p || (s.peer p).present) ∧
    (s.ownJoinFates others p).completes = !s.sees others p := by
  cases seen : s.sees others p with
  | true =>
    rw [ownJoinFates_seen seen]
    exact ⟨rfl, rfl⟩
  | false =>
    cases present : (s.peer p).present with
    | true =>
      rw [ownJoinFates_lost seen present]
      exact ⟨rfl, rfl⟩
    | false =>
      rw [ownJoinFates_absent seen present]
      exact ⟨rfl, rfl⟩

/-- A QUEUED frame to a peer that is not seen completes, as lost or as absent by what the station knew (05 R94). -/
theorem record_ownJoin_unseen (unseen : s.sees others p = false) {q : Posted} (names : q.peer = some p) :
    (s.ownJoinFates others p).record p (.queued q) = .done (q.doneRecord
      (if (s.peer p).present = true ∧ s.rdc.joinFromMember = true then .peerLost else .peerAbsent) q.attempts) := by
  have waits : (FrameRecord.queued q).queuedTo p = true := (queuedTo_iff _ p).mpr ⟨q, rfl, names⟩
  cases present : (s.peer p).present with
  | true =>
    rw [ownJoinFates_lost unseen present, PeerFate.record, if_pos waits]
    simp only [true_and]
    rfl
  | false =>
    rw [ownJoinFates_absent unseen present, PeerFate.record, if_pos waits, if_neg fun h => Bool.false_ne_true h.1]
    rfl

/-! ## The sweep -/

theorem setEntries_eq_sweep (s : State) (others : Cells) :
    s.peerPositions.foldl (State.setEntry (others &&& s.joinOut)) s =
      s.sweep (s.ownJoinFates others) s.peerPositions := by
  refine foldl_eq_sweep fun t p other rdc same => ?_
  rw [State.setEntry, cellLow_join s others other, rdc, same, State.ownJoinFates, State.sees, cellLow]
  split
  · rfl
  · split <;> rfl

theorem ownJoinSweep_queued (placed : s.Placed) (other : p ≠ s.own) {f : FrameNo} {q : Posted}
    (was : s.frame f = .queued q) (names : q.peer = some p) :
    (s.sweep (s.ownJoinFates others) s.peerPositions).frame f = (s.ownJoinFates others p).record p (.queued q) := by
  rw [sweep_frame placed, was]
  exact sweep_of_named (r := .queued q) names _ (nodup_peerPositions s) ((mem_peerPositions s p).mpr other)

theorem ownJoinSweep_osc (placed : s.Placed) (others : Cells) :
    (s.sweep (s.ownJoinFates others) s.peerPositions).osc =
      s.oscWithoutAll (s.peerPositions.filter fun p => !s.sees others p) := by
  rw [sweep_osc placed _ (nodup_peerPositions s)]
  exact congrArg _ (List.filter_congr fun p _ => (ownJoinFates_does s others p).2)

/-- A frame that waits for no peer loses credit-bearing at most. -/
theorem ownJoinSweep_frame (placed : s.Placed) (others : Cells) {f : FrameNo}
    (ours : ∀ q p, s.frame f = .queued q → q.peer = some p → p = s.own) :
    (s.sweep (s.ownJoinFates others) s.peerPositions).frame f =
      (s.frame f).clearCredits (s.peerPositions.filter fun p => s.sees others p || (s.peer p).present) := by
  rw [sweep_frame placed, sweep_eq_clearCredits (nodup_peerPositions s) fun p mem waits => ?_]
  · exact congrArg _ (List.filter_congr fun p _ => (ownJoinFates_does s others p).1)
  · obtain ⟨q, was, names⟩ := (queuedTo_iff _ p).mp waits
    exact absurd (ours q p was names) ((mem_peerPositions s p).mp mem)

end

/-- Settles O32: the own join round as a sweep, by whether each peer is seen and was PRESENT. -/
theorem ownJoinRoundSetsEveryEntry : Obligations.OwnJoinRoundSetsEveryEntry := by
  intro s others hr stage joining placed
  have settles := settles_sweep s (s.ownJoinFates others) s.peerPositions
  refine ⟨_, joinFieldEnd_joining hr stage joining, ?_⟩
  rw [State.ownJoin, setEntries_eq_sweep]
  refine ⟨rfl, rfl, rfl, rfl, (fen_of_settles settles :), ?_, fun p other => ?_, ownJoinSweep_osc placed others,
    fun f ours => ?_⟩
  · refine sameElsewhere_trans (sameElsewhere_of_settles settles)
      (sameElsewhere_trans ?_ (sameElsewhere_riseJoin s _ others))
    simp [State.SameElsewhere, State.latchJoined]
  · intro seen outcome
    have entry := sweep_entry s (s.ownJoinFates others) other
    have notSeen : ¬ seen → s.sees others p = false := fun h => Bool.eq_false_of_not_eq_true (mt sees_iff.mp h)
    refine ⟨fun h => ?_, fun h present => ?_, fun h absent => ?_, fun h f q was names => ?_⟩
    · have fate := ownJoinFates_seen (sees_iff.mpr h)
      rw [fate] at entry
      refine ⟨entry, sweep_latches (s := s) other (by rw [fate]; rfl), fun f q was names => ?_⟩
      refine (ownJoinSweep_queued placed other was names).trans ?_
      rw [fate]
      exact (dropSeq_queued q p).trans (congrArg _ (if_pos names))
    · have fate := ownJoinFates_lost (notSeen h) present
      rw [fate] at entry
      exact ⟨entry, sweep_latches (s := s) other (by rw [fate]; rfl)⟩
    · rw [ownJoinFates_absent (notSeen h) absent] at entry
      exact entry
    · exact (ownJoinSweep_queued placed other was names).trans (record_ownJoin_unseen (notSeen h) names)
  · refine (ownJoinSweep_frame placed others ours).trans ?_
    cases s.frame f <;> rfl

end Sys2Proof.Laws
end

section
/-!
SUPPORT. The laws of a station out of the round (06 R101, R105), of the wires (00 section 5.1, 08 R142, R147) and of the
resting Wake Unit (10 R165), kept from one state to another. `LineKept` says it of two states; below, the edges, the
counts, the way out of the round and the commands inside a round keep them.
-/

namespace Sys2Proof.Machine

/-- The wires read as this station pulls them, and a count above 0 counts what they read (08 R142, R147). -/
structure Lif.Agrees (l : Lif) : Prop where
  wclk : l.wclkDrive = true → l.wclk = .low
  wdat : l.wdatDrive = true → l.wdat = .low
  clockLow : 0 < l.clockLow → l.wclk = .low
  dataLow : 0 < l.dataLow → l.wdat = .low ∧ l.wclk = .high
  idle : 0 < l.idle → l.wclk = .high ∧ l.wdat = .high

/-- What the place in the round allows of the drives, of open seen and of a mark (06 R101; 08 R142 to R144; 07 R128). -/
structure State.DrivesInPlace (s : State) : Prop where
  between : s.rdc.stage = .idle →
    s.lif.wclkDrive = false ∧ (s.lif.openCount = none → s.lif.wdatDrive = false) ∧ s.fen.undo = none
  openSeen : s.lif.openSeen = true → s.rdc.stage = .idle ∧ s.lif.openCount = none
  silent : s.readsLine = false → s.lif.wclkDrive = false ∧ s.lif.wdatDrive = false

/-- The laws of O58, from one state to another. -/
structure State.LineKept (s t : State) : Prop where
  silent : s.SilentOutOfRound → t.SilentOutOfRound
  wires : s.WiresConsistent → t.WiresConsistent
  wake : s.WakeRests → t.WakeRests

/-- The station stands in a round that it reads. -/
structure State.InRound (s : State) : Prop where
  reads : s.readsLine = true
  stage : s.rdc.stage ≠ .idle

/-- An act on the traffic side: the line, the round and the Wake Unit stand, and nothing begins in the Frame Engine or
enters an empty slot. -/
structure State.OffLine (s t : State) : Prop where
  lif : t.lif = s.lif
  rdc : t.rdc = s.rdc
  wku : t.wku = s.wku
  slot : s.osc.slot = none → t.osc.slot = none
  tx : s.fen.tx = none → t.fen.tx = none
  valid : s.fen.staging.valid = false → t.fen.staging.valid = false
  decision : s.fen.decision = none → t.fen.decision = none
  undo : s.fen.undo = none → t.fen.undo = none

theorem State.LineKept.trans {s t u : State} (h : s.LineKept t) (k : t.LineKept u) : s.LineKept u :=
  ⟨k.silent ∘ h.silent, k.wires ∘ h.wires, k.wake ∘ h.wake⟩

theorem State.OffLine.trans {s t u : State} (h : s.OffLine t) (k : t.OffLine u) : s.OffLine u :=
  ⟨k.lif.trans h.lif, k.rdc.trans h.rdc, k.wku.trans h.wku, k.slot ∘ h.slot, k.tx ∘ h.tx, k.valid ∘ h.valid,
    k.decision ∘ h.decision, k.undo ∘ h.undo⟩

end Sys2Proof.Machine

namespace Sys2Proof.Laws

open Sys2Proof.Machine

/-! ## The laws, taken apart -/

theorem wiresConsistent_iff (s : State) : s.WiresConsistent ↔ s.lif.Agrees ∧ s.DrivesInPlace := by
  constructor
  · rintro ⟨hwclk, hwdat, hbetween, hseen, hsilent, hclock, hdata, hidle⟩
    exact ⟨⟨hwclk, hwdat, hclock, hdata, hidle⟩, ⟨hbetween, hseen, hsilent⟩⟩
  · rintro ⟨agrees, place⟩
    exact ⟨agrees.wclk, agrees.wdat, place.between, place.openSeen, place.silent, agrees.clockLow, agrees.dataLow,
      agrees.idle⟩

/-- The laws of the wires in a round that the station reads: the wires agree, and no OPEN is seen. -/
theorem wiresConsistent_inRound {s : State} (round : s.InRound) :
    s.WiresConsistent ↔ s.lif.Agrees ∧ s.lif.openSeen = false := by
  rw [wiresConsistent_iff]
  refine and_congr_right fun _ => ⟨fun place => ?_, fun unseen => ⟨fun stage => absurd stage round.stage, fun seen => ?_,
    fun out => ?_⟩⟩
  · by_contra seen
    exact round.stage (place.openSeen (Bool.eq_true_of_not_eq_false seen)).1
  · cases unseen.symm.trans seen
  · cases round.reads.symm.trans out

/-- A station that reads the line keeps nothing of silence to keep. -/
theorem silentOutOfRound_of_reads {s : State} (reads : s.readsLine = true) : s.SilentOutOfRound := fun out => by
  cases reads.symm.trans out

theorem silentOutOfRound_of_outOfRound {s : State} {entered : Participation} (out : s.OutOfRound entered) :
    s.SilentOutOfRound := by
  obtain ⟨-, wclk, wdat, phase, -, -, slot, tx, valid, decision, -, -, join, rejoin, lead, claimants, window, chain,
    sweep, streak, -⟩ := out
  exact fun _ => ⟨wclk, wdat, phase, slot, tx, valid, decision, lead, chain, claimants, window, sweep, streak, join,
    rejoin⟩

/-- A Wake Unit that stands, or that dozes, leaves nothing to rest. -/
theorem wakeRests_of {s t : State} (h : t.wku = s.wku ∨ t.wku.doze = true) (rests : s.WakeRests) : t.WakeRests := by
  intro awake
  rcases h with same | dozes
  · simp only [State.wakeEntry, same] at awake ⊢
    exact rests awake
  · cases dozes.symm.trans awake

theorem readsLine_of_participation {s t : State} (h : t.rdc.participation = s.rdc.participation) :
    t.readsLine = s.readsLine := by
  unfold State.readsLine
  rw [h]

theorem readsLine_iff (s : State) : s.readsLine = true ↔ s.rdc.participation = .observing ∨
    s.rdc.participation = .joining ∨ s.rdc.participation = .member := by
  unfold State.readsLine
  cases s.rdc.participation <;> simp

/-! ## Sequences -/

theorem lineKept_refl (s : State) : s.LineKept s := ⟨id, id, id⟩

theorem offLine_refl (s : State) : s.OffLine s := ⟨rfl, rfl, rfl, id, id, id, id, id⟩

theorem lineKept_offLine {s t : State} (h : s.OffLine t) : s.LineKept t := by
  have reads : t.readsLine = s.readsLine := readsLine_of_participation (congrArg _ h.rdc)
  refine ⟨fun silent out => ?_, fun wires => ?_, wakeRests_of (.inl h.wku)⟩
  · obtain ⟨wclk, wdat, phase, slot, tx, valid, decision, rest⟩ := silent (reads ▸ out)
    rw [h.lif, h.rdc]
    exact ⟨wclk, wdat, phase, h.slot slot, h.tx tx, h.valid valid, h.decision decision, rest⟩
  · obtain ⟨agrees, place⟩ := (wiresConsistent_iff s).mp wires
    refine (wiresConsistent_iff t).mpr ⟨h.lif ▸ agrees, ?_⟩
    constructor <;> rw [h.lif]
    · rw [h.rdc]
      exact fun stage => (place.between stage).imp_right (And.imp_right h.undo)
    · rw [h.rdc]
      exact place.openSeen
    · rw [reads]
      exact place.silent

/-! ## The levels after edges and cell-times -/

theorem agrees_fall (s : State) (clocking drives : Bool) : (s.fall clocking drives).lif.Agrees := by
  refine ⟨fun _ => rfl, fun driven => if_pos driven, ?_, ?_, ?_⟩ <;> exact fun none => absurd none (lt_irrefl 0)

theorem agrees_rise (s : State) (clocking drives : Bool) (sample : Level) :
    (s.rise clocking drives sample).lif.Agrees := by
  refine ⟨fun released => (nomatch released), fun driven => if_pos driven, ?_, ?_, ?_⟩ <;>
    exact fun none => absurd none (lt_irrefl 0)

/-- A count that runs while a condition holds is above 0 only where it holds. -/
theorem of_pos_ite {c : Prop} [Decidable c] {n : Nat} (h : 0 < if c then n else 0) : c := by
  by_contra no
  rw [if_neg no] at h
  exact lt_irrefl 0 h

theorem not_of_pos_ite {c : Prop} [Decidable c] {n : Nat} (h : 0 < if c then 0 else n) : ¬ c := fun hc => by
  rw [if_pos hc] at h
  exact lt_irrefl 0 h

theorem level_ne_high_iff (x : Level) : x ≠ .high ↔ x = .low := by cases x <;> simp

theorem level_ne_low_iff (x : Level) : x ≠ .low ↔ x = .high := by cases x <;> simp

theorem bothHigh_iff (l : Lif) : bothHigh l = true ↔ l.wclk = .high ∧ l.wdat = .high := by simp [bothHigh]

theorem agrees_elapse {l : Lif} (n : Nat) (wclk : l.wclkDrive = true → l.wclk = .low)
    (wdat : l.wdatDrive = true → l.wdat = .low) : (l.elapse n).Agrees :=
  ⟨wclk, wdat, of_pos_ite, of_pos_ite, fun counts => (bothHigh_iff l).mp (of_pos_ite counts)⟩

/-- The wires released: the counts go by what they then read, and the idle-time count stands. -/
theorem agrees_released {l : Lif} (idle : 0 < l.idle → l.wclk = .high ∧ l.wdat = .high) : l.released.Agrees := by
  refine ⟨fun h => (nomatch h), fun h => (nomatch h), fun counts => ?_, fun counts => ?_, fun counts => ?_⟩
  · exact (level_ne_high_iff _).mp (not_of_pos_ite counts)
  · obtain ⟨wdat, wclk⟩ := not_or.mp (not_of_pos_ite counts)
    exact ⟨(level_ne_high_iff _).mp wdat, (level_ne_low_iff _).mp wclk⟩
  · obtain ⟨wclk, wdat⟩ := idle counts
    exact ⟨ite_eq_left_iff.mpr fun _ => wclk, ite_eq_left_iff.mpr fun _ => wdat⟩

end Sys2Proof.Laws
end

section
/-!
SUPPORT. The acts of the line keep the laws of silence, wires and rest: the edges of a cell in a round, the counts
between rounds, the ways out of the round, the start of a round.
-/

namespace Sys2Proof.Machine

/-- The Line Interface pulls nothing that it did not pull before, and sees no OPEN that it had not seen. -/
structure Lif.NoNewDrive (l l' : Lif) : Prop where
  wclkDrive : l.wclkDrive = false → l'.wclkDrive = false
  wdatDrive : l'.wdatDrive = true → l.wdatDrive = true ∧ (l'.openCount = none → l.openCount = none)
  phase : l.phase = .none → l'.phase = .none
  openSeen : l'.openSeen = true → l.openSeen = true ∧ (l.openCount = none → l'.openCount = none)

/-- The Round Controller as a round begins, before pending joins are taken (06 R109, R118). -/
def Rdc.begun (r : Rdc) (chain : Nat) : Rdc :=
  { r with
    chain := chain, claimants := [], window := none, presence := BitVec.allOnes 16, sweep := .held, stage := .lead }

theorem Lif.NoNewDrive.releasedWdat {l l' : Lif} (h : l.NoNewDrive l') (released : l.wdatDrive = false) :
    l'.wdatDrive = false :=
  Bool.eq_false_of_not_eq_true fun driven => by cases released.symm.trans (h.wdatDrive driven).1

end Sys2Proof.Machine

namespace Sys2Proof.Laws

open Sys2Proof.Machine

/-! ## Where the station stands -/

theorem betweenRounds_iff (s : State) : s.betweenRounds = true ↔
    (s.rdc.participation = .member ∨ s.rdc.participation = .observing) ∧ s.rdc.stage = .idle := by
  simp [State.betweenRounds, State.isMember, State.isObserving]

theorem noOpen_iff (s : State) : s.noOpen = true ↔ s.lif.openSeen = false ∧ s.lif.openCount = none := by
  simp [State.noOpen]

theorem reads_of_betweenRounds {s : State} (between : s.betweenRounds = true) : s.readsLine = true := by
  obtain ⟨participation, -⟩ := (betweenRounds_iff s).mp between
  exact (readsLine_iff s).mpr (participation.elim (.inr ∘ .inr) .inl)

/-- Between rounds, with no OPEN of its own, the station pulls nothing (08 R142, R143). -/
theorem released_of_noOpen {s : State} (stage : s.rdc.stage = .idle) (openCount : s.lif.openCount = none)
    (wires : s.WiresConsistent) : s.lif.wclkDrive = false ∧ s.lif.wdatDrive = false := by
  obtain ⟨-, place⟩ := (wiresConsistent_iff s).mp wires
  obtain ⟨wclk, wdat, -⟩ := place.between stage
  exact ⟨wclk, wdat openCount⟩

/-- Out of the round the station pulls nothing (06 R101). -/
theorem released_of_out {s : State} (out : s.readsLine = false) (wires : s.WiresConsistent) :
    s.lif.wclkDrive = false ∧ s.lif.wdatDrive = false :=
  ((wiresConsistent_iff s).mp wires).2.silent out

/-! ## In a round -/

theorem inRound_of {s t : State} (reads : s.readsLine = true)
    (participation : t.rdc.participation = s.rdc.participation) (stage : t.rdc.stage ≠ .idle) : t.InRound :=
  ⟨(readsLine_of_participation participation).trans reads, stage⟩

/-- In a round no OPEN is seen (08 R144). -/
theorem unseen_of_stage {s : State} (wires : s.WiresConsistent) (stage : s.rdc.stage ≠ .idle) :
    s.lif.openSeen = false := by
  obtain ⟨-, place⟩ := (wiresConsistent_iff s).mp wires
  exact Bool.eq_false_of_not_eq_true fun seen => stage (place.openSeen seen).1

theorem lineKept_inRound {s t : State} (hs : s.InRound) (ht : t.InRound) (lif : t.lif = s.lif)
    (wku : t.wku = s.wku ∨ t.wku.doze = true) : s.LineKept t := by
  refine ⟨fun _ => silentOutOfRound_of_reads ht.reads, fun wires => ?_, wakeRests_of wku⟩
  rw [wiresConsistent_inRound hs] at wires
  rwa [wiresConsistent_inRound ht, lif]

theorem lineKept_fall {s u : State} {clocking drives : Bool} (round : u.InRound) (wku : u.wku = s.wku) :
    s.LineKept (u.fall clocking drives) := by
  have after : (u.fall clocking drives).InRound := ⟨round.reads, round.stage⟩
  exact ⟨fun _ => silentOutOfRound_of_reads after.reads,
    fun _ => (wiresConsistent_inRound after).mpr ⟨agrees_fall u clocking drives, rfl⟩, wakeRests_of (.inl wku)⟩

/-- The rise that ends a field at a station that goes on reading the line: the acts of the field before it leave the
line and the Wake Unit, and lead on in the round, where the wires were those of a round. -/
theorem lineKept_riseFrom {s u : State} {clocking drives : Bool} {sample : Level}
    (before : s.WiresConsistent → s.rdc.stage ≠ .idle) (reads : u.readsLine = true)
    (after : s.WiresConsistent → u.rdc.stage ≠ .idle) (lif : u.lif = s.lif) (wku : u.wku = s.wku) :
    s.LineKept (u.rise clocking drives sample) := by
  refine ⟨fun _ => silentOutOfRound_of_reads reads, fun wires => ?_, wakeRests_of (.inl wku)⟩
  have round : (u.rise clocking drives sample).InRound := ⟨reads, after wires⟩
  refine (wiresConsistent_inRound round).mpr ⟨agrees_rise u clocking drives sample, ?_⟩
  exact (congrArg Lif.openSeen lif).trans (unseen_of_stage wires (before wires))

theorem lineKept_riseAfter {s u : State} {clocking drives : Bool} {sample : Level} (hs : s.InRound) (hu : u.InRound)
    (lif : u.lif = s.lif) (wku : u.wku = s.wku) : s.LineKept (u.rise clocking drives sample) :=
  lineKept_riseFrom (fun _ => hs.stage) hu.reads (fun _ => hu.stage) lif wku

theorem lineKept_rise {s : State} {clocking drives : Bool} {sample : Level} (round : s.InRound) :
    s.LineKept (s.rise clocking drives sample) := lineKept_riseAfter round round rfl rfl

/-! ## Levels and counts -/

theorem lineKept_withLif {s : State} {l : Lif} (drives : s.lif.NoNewDrive l) (agrees : s.WiresConsistent → l.Agrees) :
    s.LineKept (s.withLif l) := by
  refine ⟨fun silent out => ?_, fun wires => (wiresConsistent_iff _).mpr ⟨agrees wires, ?_⟩, wakeRests_of (.inl rfl)⟩
  · obtain ⟨wclk, wdat, phase, rest⟩ := silent out
    exact ⟨drives.wclkDrive wclk, drives.releasedWdat wdat, drives.phase phase, rest⟩
  · obtain ⟨-, place⟩ := (wiresConsistent_iff s).mp wires
    refine ⟨fun stage => ?_, fun seen => ?_, fun out => ?_⟩
    · obtain ⟨hwclk, hwdat, undo⟩ := place.between stage
      refine ⟨drives.wclkDrive hwclk, fun closed => Bool.eq_false_of_not_eq_true fun driven => ?_, undo⟩
      obtain ⟨before, opened⟩ := drives.wdatDrive driven
      cases before.symm.trans (hwdat (opened closed))
    · obtain ⟨before, closed⟩ := drives.openSeen seen
      exact (place.openSeen before).imp_right closed
    · exact (place.silent out).imp drives.wclkDrive drives.releasedWdat

theorem noNewDrive_refl (l : Lif) : l.NoNewDrive l := ⟨id, fun h => ⟨h, id⟩, id, fun h => ⟨h, id⟩⟩

/-- The sweep timer alone changes, and not from its stop. -/
theorem lineKept_sweep {s : State} {x : SweepTimer} (stopped : s.rdc.sweep = .stopped → x = .stopped) :
    s.LineKept (s.withRdc { s.rdc with sweep := x }) := by
  refine ⟨fun silent out => ?_, fun wires => wires, wakeRests_of (.inl rfl)⟩
  obtain ⟨wclk, wdat, phase, slot, tx, valid, decision, lead, chain, claimants, window, sweep, rest⟩ := silent out
  exact ⟨wclk, wdat, phase, slot, tx, valid, decision, lead, chain, claimants, window, stopped sweep, rest⟩

/-- The levels are set and cell-times pass: the counts then go by the levels, whatever they were. -/
theorem lineKept_setElapse {s : State} {l : Lif} (drives : s.lif.NoNewDrive l)
    (agrees : s.WiresConsistent → (l.wclkDrive = true → l.wclk = .low) ∧ (l.wdatDrive = true → l.wdat = .low))
    (n : Nat) : s.LineKept ((s.withLif l).elapse n) := by
  have elapsed : s.lif.NoNewDrive (l.elapse n) :=
    ⟨drives.wclkDrive, fun h => ⟨(drives.wdatDrive h).1, fun none => (drives.wdatDrive h).2 (Option.map_eq_none_iff.mp none)⟩,
      drives.phase, fun h => ⟨(drives.openSeen h).1, fun none => Option.map_eq_none_iff.mpr ((drives.openSeen h).2 none)⟩⟩
  refine (lineKept_withLif elapsed fun wires => ?_).trans (lineKept_sweep fun stopped => ?_)
  · exact agrees_elapse n (agrees wires).1 (agrees wires).2
  · exact congrArg (SweepTimer.elapse · n) stopped

theorem lineKept_elapse (s : State) (n : Nat) : s.LineKept (s.elapse n) :=
  lineKept_setElapse (noNewDrive_refl s.lif) (fun wires => by
    obtain ⟨agrees, -⟩ := (wiresConsistent_iff s).mp wires
    exact ⟨agrees.wclk, agrees.wdat⟩) n

/-- Wires read HIGH change levels and counts alone. -/
theorem quiet_keeps (l : Lif) : l.quiet.straps = l.straps ∧ l.quiet.wclkDrive = l.wclkDrive ∧
    l.quiet.wdatDrive = l.wdatDrive ∧ l.quiet.phase = l.phase ∧ l.quiet.openSeen = l.openSeen ∧
    l.quiet.openCount = l.openCount := by
  unfold Lif.quiet
  split <;> exact ⟨rfl, rfl, rfl, rfl, rfl, rfl⟩

/-- Both wires are read HIGH at a station that pulls neither. -/
theorem lineKept_quietUntil {s : State}
    (released : s.WiresConsistent → s.lif.wclkDrive = false ∧ s.lif.wdatDrive = false) (n : Nat) :
    s.LineKept (s.quietUntil n) := by
  obtain ⟨-, wclk, wdat, phase, seen, count⟩ := quiet_keeps s.lif
  refine lineKept_setElapse ?_ (fun wires => ?_) _
  · constructor
    · exact wclk.trans
    · exact fun driven => ⟨wdat.symm.trans driven, count.symm.trans⟩
    · exact phase.trans
    · exact fun h => ⟨seen.symm.trans h, count.trans⟩
  · obtain ⟨noClock, noData⟩ := released wires
    rw [wclk, wdat, noClock, noData]
    exact ⟨fun h => (nomatch h), fun h => (nomatch h)⟩

theorem noOpen_quietUntil {s : State} (unopened : s.noOpen = true) (n : Nat) : (s.quietUntil n).noOpen = true := by
  obtain ⟨unseen, closed⟩ := (noOpen_iff s).mp unopened
  obtain ⟨-, -, -, -, seen, count⟩ := quiet_keeps s.lif
  exact (noOpen_iff _).mpr ⟨seen.trans unseen, Option.map_eq_none_iff.mpr (count.trans closed)⟩

/-- A wire stays low by another station's drive: this one pulls less than before. -/
theorem lineKept_holdLow (s : State) (wire : Wire) : s.LineKept (s.holdLow wire) := by
  cases wire with
  | wclk =>
    refine lineKept_setElapse ?_ (fun wires => ?_) _
    · exact ⟨fun _ => rfl, fun h => ⟨h, id⟩, id, fun h => ⟨h, id⟩⟩
    · obtain ⟨agrees, -⟩ := (wiresConsistent_iff s).mp wires
      exact ⟨fun _ => rfl, agrees.wdat⟩
  | wdat =>
    refine lineKept_setElapse ?_ (fun _ => ?_) _
    · exact ⟨fun _ => rfl, fun h => (nomatch h), id, fun h => ⟨h, id⟩⟩
    · exact ⟨fun h => (nomatch h), fun _ => rfl⟩

theorem lineKept_restartIdle (s : State) : s.LineKept s.restartIdle := by
  refine lineKept_withLif ⟨id, fun h => ⟨h, id⟩, id, fun h => ⟨h, id⟩⟩ fun wires => ?_
  obtain ⟨agrees, -⟩ := (wiresConsistent_iff s).mp wires
  exact ⟨agrees.wclk, agrees.wdat, agrees.clockLow, agrees.dataLow, fun none => absurd none (lt_irrefl 0)⟩

/-- A rise at a station that then takes no part in the cell (08 R147). -/
theorem lineKept_riseReleased (s : State) (sample : Level) : s.LineKept (s.rise false false sample) :=
  lineKept_withLif ⟨fun _ => rfl, fun h => (nomatch h), fun _ => rfl, fun h => ⟨h, id⟩⟩
    fun _ => agrees_rise s false false sample

/-! ## Edges between rounds -/

/-- Another station pulls WDAT low while this one pulls WCLK not (08 R142, R144). -/
theorem lineKept_dataFalls {s : State} (released : s.WiresConsistent → s.lif.wclkDrive = false) :
    s.LineKept s.dataFalls := by
  refine lineKept_withLif ⟨id, fun h => ⟨h, id⟩, id, fun h => ⟨h, id⟩⟩ fun wires => ?_
  refine ⟨fun driven => ?_, fun _ => rfl, ?_, ?_, ?_⟩
  · cases (released wires).symm.trans driven
  all_goals exact fun none => absurd none (lt_irrefl 0)

/-- WDAT rises where this station does not pull it (08 R145). -/
theorem lineKept_dataRise {s : State} (released : s.WiresConsistent → s.lif.wdatDrive = false) :
    s.LineKept s.dataRise := by
  refine lineKept_withLif ⟨id, fun h => ⟨h, id⟩, id, fun h => (nomatch h)⟩ fun wires => ?_
  obtain ⟨agrees, -⟩ := (wiresConsistent_iff s).mp wires
  refine ⟨agrees.wclk, fun driven => ?_, agrees.clockLow, ?_, ?_⟩
  · cases (released wires).symm.trans driven
  all_goals exact fun none => absurd none (lt_irrefl 0)

/-- A WCLK fall that starts no round moves the wire and ends the counts (08 R145). -/
theorem lineKept_strayClockFall (s : State) :
    s.LineKept (s.withLif { s.lif with wclk := .low, idle := 0, clockLow := 0, dataLow := 0 }) := by
  refine lineKept_withLif ⟨id, fun h => ⟨h, id⟩, id, fun h => ⟨h, id⟩⟩ fun wires => ?_
  obtain ⟨agrees, -⟩ := (wiresConsistent_iff s).mp wires
  refine ⟨fun _ => rfl, agrees.wdat, ?_, ?_, ?_⟩ <;> exact fun none => absurd none (lt_irrefl 0)

/-- Open seen is set between rounds, where the station holds no OPEN (08 R144). -/
theorem lineKept_openSeen {s : State} (between : s.betweenRounds = true) (closed : s.lif.openCount = none) :
    s.LineKept (s.withLif { s.lif with openSeen := true }) := by
  obtain ⟨-, stage⟩ := (betweenRounds_iff s).mp between
  have reads := reads_of_betweenRounds between
  refine ⟨fun _ => silentOutOfRound_of_reads reads, fun wires => (wiresConsistent_iff _).mpr ?_, wakeRests_of (.inl rfl)⟩
  obtain ⟨agrees, place⟩ := (wiresConsistent_iff s).mp wires
  exact ⟨⟨agrees.wclk, agrees.wdat, agrees.clockLow, agrees.dataLow, agrees.idle⟩,
    ⟨place.between, fun _ => ⟨stage, closed⟩, place.silent⟩⟩

/-- The station opens: WDAT is pulled low, in its own OPEN (08 R143). -/
theorem lineKept_beginOpen {s : State} (between : s.betweenRounds = true) (unopened : s.noOpen = true) :
    s.LineKept s.beginOpen := by
  obtain ⟨unseen, -⟩ := (noOpen_iff s).mp unopened
  have reads := reads_of_betweenRounds between
  refine ⟨fun _ => silentOutOfRound_of_reads reads, fun wires => (wiresConsistent_iff _).mpr ?_, wakeRests_of (.inl rfl)⟩
  obtain ⟨agrees, place⟩ := (wiresConsistent_iff s).mp wires
  refine ⟨⟨agrees.wclk, fun _ => rfl, agrees.clockLow, ?_, ?_⟩, ⟨fun stage => ?_, fun seen => ?_, fun out => ?_⟩⟩
  · exact fun none => absurd none (lt_irrefl 0)
  · exact fun none => absurd none (lt_irrefl 0)
  · obtain ⟨wclk, -, undo⟩ := place.between stage
    exact ⟨wclk, fun h => (nomatch h), undo⟩
  · cases unseen.symm.trans seen
  · cases reads.symm.trans out

theorem lineKept_sweepUp (s : State) : s.LineKept s.sweepUp := by
  unfold State.sweepUp
  split
  · rename_i m running
    split
    · exact lineKept_elapse s _
    · exact lineKept_sweep fun stopped => by cases running.symm.trans stopped
  all_goals exact lineKept_refl s

/-! ## Leaving the round -/

theorem leaveRound_line (s : State) (entered : Participation) :
    (s.leaveRound entered).lif = s.lif.released ∧ (s.leaveRound entered).wku = s.wku ∧
    (s.leaveRound entered).fen.undo = none := by
  obtain ⟨_, _, _, _, h⟩ := settles_withdraw s
  simp only [State.leaveRound, h, withRdc_lif, withFen_lif, withLif_lif, withRdc_wku, withFen_wku, withLif_wku,
    withRdc_fen, withFen_fen, and_self]

section
variable {s u : State}

/-- The station leaves the round, from a state whose idle-time count, if any, counts HIGH wires (06 R105). -/
theorem lineKept_leaveRound (wku : u.wku = s.wku)
    (idle : s.WiresConsistent → 0 < u.lif.idle → u.lif.wclk = .high ∧ u.lif.wdat = .high) (entered : Participation) :
    s.LineKept (u.leaveRound entered) := by
  have out := leaveRound_outOfRound u entered
  obtain ⟨lif, wkuKept, undo⟩ := leaveRound_line u entered
  refine ⟨fun _ => silentOutOfRound_of_outOfRound out, fun wires => (wiresConsistent_iff _).mpr ⟨?_, ?_⟩,
    wakeRests_of (.inl (wkuKept.trans wku))⟩
  · rw [lif]
    exact agrees_released (idle wires)
  · obtain ⟨-, wclk, wdat, -, unseen, -⟩ := out
    exact ⟨fun _ => ⟨wclk, fun _ => wdat, undo⟩, fun seen => (by cases unseen.symm.trans seen), fun _ => ⟨wclk, wdat⟩⟩

theorem lineKept_withLpt (s : State) (x : Lpt) : s.LineKept (s.withLpt x) :=
  lineKept_offLine ⟨rfl, rfl, rfl, id, id, id, id, id⟩

theorem idle_of_wires (wires : s.WiresConsistent) : 0 < s.lif.idle → s.lif.wclk = .high ∧ s.lif.wdat = .high :=
  ((wiresConsistent_iff s).mp wires).1.idle

theorem lineKept_enterFault (s : State) : s.LineKept s.enterFault :=
  ((lineKept_leaveRound rfl idle_of_wires _).trans (lineKept_restartIdle _)).trans (lineKept_withLpt _ _)

theorem lineKept_enterConflict (s : State) : s.LineKept s.enterConflict :=
  (lineKept_leaveRound rfl idle_of_wires _).trans (lineKept_withLpt _ _)

theorem lineKept_enterListening (wku : u.wku = s.wku)
    (idle : s.WiresConsistent → 0 < u.lif.idle → u.lif.wclk = .high ∧ u.lif.wdat = .high) :
    s.LineKept u.enterListening := by
  have entered := (lineKept_leaveRound wku idle .listening).trans (lineKept_restartIdle _)
  unfold State.enterListening
  dsimp only
  split
  · exact entered.trans (lineKept_enterFault _)
  · exact entered

theorem lineKept_syncLoss (s : State) : s.LineKept s.syncLoss :=
  (lineKept_withLpt s _).trans (lineKept_enterListening rfl idle_of_wires)

end

theorem lineKept_takeStuck (s : State) : s.LineKept s.takeStuck := by
  unfold State.takeStuck
  split
  case h_5 | h_6 => exact lineKept_refl s
  all_goals exact lineKept_enterFault s

/-- A station that begins to read the line has no silence to keep (06 R102). -/
theorem lineKept_enterObserving (s : State) : s.LineKept s.enterObserving := by
  refine ⟨fun _ => silentOutOfRound_of_reads rfl, fun wires => (wiresConsistent_iff _).mpr ?_, wakeRests_of (.inl rfl)⟩
  obtain ⟨agrees, place⟩ := (wiresConsistent_iff s).mp wires
  exact ⟨agrees, ⟨place.between, place.openSeen, fun out => (nomatch out)⟩⟩

/-! ## Starting a round -/

/-- Pending joins change the participation and the requests alone (06 R104). -/
theorem takeJoins_rdc (s : State) : s.takeJoins.rdc =
    if s.rdc.participation = .observing ∧ s.rdc.joinPending = true then
      { s.rdc with participation := .joining, joinPending := false, joinFromMember := false }
    else if s.rdc.participation = .member ∧ s.rdc.rejoin = true then
      { s.rdc with participation := .joining, rejoin := false, joinFromMember := true }
    else s.rdc := by
  unfold State.takeJoins
  cases participation : s.rdc.participation with
  | observing => cases s.rdc.joinPending <;> simp
  | member => cases s.rdc.rejoin <;> simp
  | listening | joining | conflict | fault => simp

/-- The Round Controller after the round-start acts (06 R104, R109, R118). -/
theorem beginRound_rdc (s : State) (chain : Nat) : (s.beginRound chain).rdc =
    if s.rdc.participation = .observing ∧ s.rdc.joinPending = true then
      { s.rdc.begun chain with participation := .joining, joinPending := false, joinFromMember := false }
    else if s.rdc.participation = .member ∧ s.rdc.rejoin = true then
      { s.rdc.begun chain with participation := .joining, rejoin := false, joinFromMember := true }
    else s.rdc.begun chain :=
  takeJoins_rdc _

theorem beginRound_inRound {s : State} (reads : s.readsLine = true) (chain : Nat) : (s.beginRound chain).InRound := by
  constructor
  · rw [readsLine_iff] at reads ⊢
    rw [beginRound_rdc]
    split
    · exact .inr (.inl rfl)
    · split
      · exact .inr (.inl rfl)
      · exact reads
  · rw [beginRound_rdc]
    split
    · exact nofun
    · split <;> exact nofun

theorem wku_beginRound (s : State) (chain : Nat) : (s.beginRound chain).wku = s.wku := by
  rw [State.beginRound, takeJoins_only]
  rfl

theorem lineKept_startRound {s : State} (between : s.betweenRounds = true) (opener : Bool) :
    s.LineKept (s.startRound opener) :=
  lineKept_fall (beginRound_inRound (reads_of_betweenRounds between) 1) (wku_beginRound s 1)

theorem lineKept_tick (s : State) : s.LineKept s.tick := by
  unfold State.tick
  split
  · exact lineKept_refl s
  · refine (lineKept_elapse s 1).trans ?_
    unfold State.takeDue
    split
    · exact lineKept_takeStuck _
    · split
      · exact lineKept_enterObserving _
      · split
        · exact lineKept_enterListening rfl idle_of_wires
        · split
          · exact lineKept_enterListening rfl idle_of_wires
          · split
            · rename_i opened
              exact lineKept_startRound opened.1 _
            · split
              · rename_i opens
                simp only [State.opensNow, Bool.and_eq_true] at opens
                obtain ⟨⟨⟨⟨between, unopened⟩, -⟩, -⟩, -⟩ := opens
                exact lineKept_beginOpen between unopened
              · exact lineKept_refl _

end Sys2Proof.Laws
end

section
/-!
SUPPORT. The commands of a round keep the laws of silence, wires and rest: the fields, the windows, the CARRY cell.
-/

namespace Sys2Proof.Laws

open Sys2Proof.Machine

/-! ## The CARRY cell -/

theorem reads_of_isMember {s : State} (member : s.isMember = true) : s.readsLine = true :=
  (readsLine_iff s).mpr (.inr (.inr (by simpa [State.isMember] using member)))

theorem reads_of_isObserving {s : State} (observing : s.isObserving = true) : s.readsLine = true :=
  (readsLine_iff s).mpr (.inl (by simpa [State.isObserving] using observing))

theorem reads_of_memberOrObserving {s : State} (h : (s.isMember || s.isObserving) = true) : s.readsLine = true :=
  (Bool.or_eq_true_iff.mp h).elim reads_of_isMember reads_of_isObserving

/-- The CARRY cell is read at a MEMBER in the cell, at an OBSERVING station in it or before it. -/
theorem readsCarry_iff (s : State) : s.readsCarry = true ↔
    (s.rdc.participation = .member ∨ s.rdc.participation = .observing) ∧
    (s.rdc.stage = .carryCell ∨ (s.rdc.participation = .observing ∧ s.rdc.stage = .carry)) := by
  unfold State.readsCarry State.isMember State.isObserving
  cases s.rdc.participation <;> simp

theorem inRound_of_readsCarry {s : State} (carry : s.readsCarry = true) : s.InRound := by
  obtain ⟨participation, stage⟩ := (readsCarry_iff s).mp carry
  refine ⟨(readsLine_iff s).mpr (participation.elim (.inr ∘ .inr) .inl), ?_⟩
  rcases stage with stage | ⟨-, stage⟩ <;> simp [stage]

/-- An OBSERVING station's observation is complete, and it is the join pending that changes (06 R103). -/
theorem completeObservation_eq (s : State) : s.completeObservation =
    s.withRdc { s.rdc with joinPending := s.rdc.joinPending || s.isObserving } := by
  unfold State.completeObservation
  cases s.isObserving with
  | true => simp
  | false => simp [State.withRdc]

theorem lineKept_beginCarry {s : State} (reads : s.readsLine = true) : s.LineKept s.beginCarry :=
  lineKept_fall (u := s.withRdc { s.rdc with stage := .carryCell }) ⟨reads, nofun⟩ rfl

theorem lineKept_startChained {s : State} (carry : s.readsCarry = true) : s.LineKept s.startChained := by
  have reads : s.completeObservation.readsLine = true := by
    rw [completeObservation_eq]
    exact (inRound_of_readsCarry carry).reads
  refine lineKept_fall (beginRound_inRound reads _) ((wku_beginRound _ _).trans ?_)
  rw [completeObservation_eq]
  rfl

/-- The round ends with both wires released and no mark to follow (06 R119). -/
theorem lineKept_endRound {s : State} (carry : s.readsCarry = true) : s.LineKept s.endRound := by
  have round := inRound_of_readsCarry carry
  have reads : s.endRound.readsLine = true := by
    rw [State.endRound, completeObservation_eq]
    exact round.reads
  have wku : s.endRound.wku = s.wku := by
    rw [State.endRound, completeObservation_eq]
    rfl
  refine ⟨fun _ => silentOutOfRound_of_reads reads, fun wires => (wiresConsistent_iff _).mpr ?_, wakeRests_of (.inl wku)⟩
  obtain ⟨-, unseen⟩ := (wiresConsistent_inRound round).mp wires
  refine ⟨agrees_rise _ false false .high, ⟨fun _ => ⟨rfl, fun _ => rfl, rfl⟩, fun seen => ?_, fun _ => ⟨rfl, rfl⟩⟩⟩
  have seen : s.lif.openSeen = true := by
    rw [State.endRound, completeObservation_eq] at seen
    exact seen
  cases unseen.symm.trans seen

/-! ## Settlements leave the line -/

theorem lif_of_settles {s t : State} (h : Settles s t) : t.lif = s.lif := by
  obtain ⟨_, _, _, _, rfl⟩ := h
  rfl

theorem wku_of_settles {s t : State} (h : Settles s t) : t.wku = s.wku := by
  obtain ⟨_, _, _, _, rfl⟩ := h
  rfl

theorem settles_withOsc (s : State) (x : Osc) : Settles s (s.withOsc x) :=
  ⟨s.peers, s.fpl.frames, x, s.lpt.latched.peer, rfl⟩

theorem settles_setFrame (s : State) (f : FrameNo) (r : FrameRecord) : Settles s (s.setFrame f r) :=
  ⟨s.peers, _, s.osc, s.lpt.latched.peer, rfl⟩

/-- A loop whose body is a settlement. -/
theorem settles_foldl {g : State → Pos → State} (hg : ∀ s p, Settles s (g s p)) (l : List Pos) (s : State) :
    Settles s (l.foldl g s) := by
  induction l generalizing s with
  | nil => exact Settles.refl s
  | cons p rest ih => exact (hg s p).trans (ih _)

theorem settles_countPresence (cells : Cells) (s : State) (p : Pos) : Settles s (s.countPresence cells p) := by
  rw [countPresence_eq_meet]
  exact settles_meet s p _

theorem settles_processJoin (cells : Cells) (s : State) (p : Pos) : Settles s (s.processJoin cells p) := by
  unfold State.processJoin
  split
  · exact settles_reinitPeer s p
  · exact Settles.refl s

theorem settles_setEntry (cells : Cells) (s : State) (p : Pos) : Settles s (s.setEntry cells p) := by
  unfold State.setEntry
  split
  · exact settles_reinitPeer s p
  · split
    · exact settles_losePeer s p _ _
    · exact settles_completeAllTo s p _

theorem settles_claimSlot (s : State) (x : Transmission) : Settles s (s.claimSlot x) := by
  obtain ⟨_, _, _, _, h⟩ := claimSlot_only s x
  rw [h]
  exact ⟨s.peers, _, _, s.lpt.latched.peer, rfl⟩

/-- The undoing of a window start changes entries, records and OSC (07 R128). -/
theorem settles_undoStart (s : State) (u : StartUndo) : Settles s (s.undoStart u) := by
  have returned : ∀ p k flag, Settles s ((s.updPeer p fun e => e.grantReturned k).setCreditLast flag) :=
    fun p k flag => (settles_updPeer s p _).trans (settles_withOsc _ _)
  unfold State.undoStart
  cases u with
  | header flag => exact settles_withOsc s _
  | grantBuilt f p k flag =>
    dsimp only
    split
    · exact (returned p k flag).trans (settles_setFrame _ _ _)
    · exact returned p k flag
  | cancelled f was flag =>
    have restored := ((settles_withOsc s { s.osc with creditLast := flag }).trans
      (settles_setFrame _ f (.sending was true))).trans (settles_withOsc _ { s.osc with
        creditLast := flag, slot := some (.frame f), completion := s.osc.completion.filter (fun g => g ≠ f) })
    dsimp only
    split
    · split
      · split
        · exact restored.trans (settles_updPeer _ _ _)
        · exact restored.trans (settles_updPeer _ _ _)
      · exact restored
    · exact settles_withOsc s _
  | creditBuilt p k flag =>
    dsimp only
    split
    · exact (returned p k flag).trans (settles_setSlot _ _)
    · exact (returned p k flag).trans (settles_setSlot _ _)
    · exact returned p k flag

/-! ## The last cell of a field, and the first of the next -/

section
variable {s t : State} {r : Rdc} {clocking drives : Bool} {sample : Level}

/-- The rise of a field's last cell: its acts have left the line, and the next field lies in the round. -/
theorem lineKept_riseTo (round : s.InRound) (lif : t.lif = s.lif) (wku : t.wku = s.wku)
    (reads : (t.withRdc r).readsLine = true) (inside : r.stage ≠ .idle) :
    s.LineKept ((t.withRdc r).rise clocking drives sample) :=
  lineKept_riseAfter round ⟨reads, inside⟩ lif wku

/-- The same at the end of a settlement. -/
theorem lineKept_riseSettled (round : s.InRound) (settles : Settles s t)
    (participation : r.participation = t.rdc.participation) (inside : r.stage ≠ .idle) :
    s.LineKept ((t.withRdc r).rise clocking drives sample) := by
  refine lineKept_riseTo round (lif_of_settles settles) (wku_of_settles settles) ?_ inside
  refine (readsLine_of_participation ?_).trans round.reads
  exact participation.trans (congrArg _ (rdc_of_settles settles))

end

/-! ## Fields -/

theorem lineKept_conflictAtCell {s : State} (round : s.InRound) : s.LineKept s.conflictAtCell :=
  (lineKept_rise round).trans (lineKept_enterConflict _)

theorem lineKept_endLead {s : State} (round : s.InRound) (others : BitVec 4) : s.LineKept (s.endLead others) := by
  unfold State.endLead
  exact lineKept_riseTo round rfl rfl round.reads nofun

theorem lineKept_endPresence {s : State} (round : s.InRound) (others : Cells) : s.LineKept (s.endPresence others) := by
  have kept : (s.presenceKept others).InRound := ⟨round.reads, nofun⟩
  unfold State.endPresence
  dsimp only
  split
  · exact lineKept_conflictAtCell round
  · split
    · have settles := settles_foldl (settles_countPresence (others &&& s.presenceOut))
        (s.presenceKept others).peerPositions (s.presenceKept others)
      have rdc := rdc_of_settles settles
      exact lineKept_riseAfter round (inRound_of kept.reads (congrArg _ rdc) (rdc ▸ kept.stage))
        (lif_of_settles settles :) (wku_of_settles settles :)
    · exact lineKept_riseTo round rfl rfl round.reads nofun

theorem lineKept_endJoin {s : State} (round : s.InRound) (others : Cells) : s.LineKept (s.endJoin others) := by
  unfold State.endJoin
  split
  · have settles := settles_foldl (settles_processJoin (others &&& s.joinOut)) s.peerPositions s
    unfold State.memberJoins
    dsimp only
    split
    · exact lineKept_riseTo round (lif_of_settles settles :) (wku_of_settles settles :)
        ((readsLine_of_participation (congrArg Rdc.participation (rdc_of_settles settles))).trans round.reads :) nofun
    · exact lineKept_riseSettled round settles rfl nofun
  · have settles := settles_foldl (settles_setEntry (others &&& s.joinOut)) s.peerPositions s
    exact lineKept_riseTo round (lif_of_settles settles :) (wku_of_settles settles :) rfl nofun
  all_goals exact lineKept_riseTo round rfl rfl round.reads nofun

theorem lineKept_ownClaim {s : State} (round : s.InRound) (others : Level) : s.LineKept (s.ownClaim others) := by
  unfold State.ownClaim
  split
  · exact lineKept_riseSettled round (settles_claimSlot s _) rfl nofun
  · split
    · exact lineKept_conflictAtCell round
    · exact lineKept_riseTo round rfl rfl round.reads nofun

theorem lineKept_endClaim {s : State} (round : s.InRound) (others : Cells) : s.LineKept (s.endClaim others) := by
  unfold State.endClaim
  dsimp only
  split
  · exact lineKept_riseTo round rfl rfl round.reads nofun
  · exact lineKept_riseAfter round ⟨round.reads, nofun⟩ rfl rfl

/-! ## The own window -/

theorem lineKept_beginOwnWindow {s : State} (round : s.InRound) : s.LineKept s.beginOwnWindow := by
  obtain ⟨_, _, _, _, _, h⟩ := starts_startWindow s
  have reads : s.startWindow.readsLine = true := by
    rw [h]
    exact round.reads
  have stage : s.startWindow.rdc.stage ≠ .idle := by
    rw [h]
    exact round.stage
  refine lineKept_fall ⟨reads, stage⟩ ?_
  rw [h]

theorem lineKept_noteCollision (s : State) (n : Nat) : s.LineKept (s.noteCollision n) :=
  lineKept_offLine ⟨rfl, rfl, rfl, id, fun none => Option.map_eq_none_iff.mpr none, id, id, fun _ => rfl⟩

theorem lineKept_compareCell (s : State) (n : Nat) (others : Level) : s.LineKept (s.compareCell n others) := by
  rcases compareCell_cases s n others with same | ⟨-, -, -, collides⟩
  · rw [same]
    exact lineKept_refl s
  · rw [collides]
    exact lineKept_noteCollision s n

theorem lineKept_collide {s : State} (round : s.InRound) (n : Nat) : s.LineKept (s.collide n) :=
  lineKept_riseAfter (u := s.noteCollision n) round ⟨round.reads, round.stage⟩ rfl rfl

theorem lineKept_countStreak {s : State} {collided : Bool} (round : s.InRound) :
    s.LineKept (s.countStreak collided) := by
  unfold State.countStreak
  split
  · split
    · exact lineKept_enterConflict s
    · exact lineKept_inRound round ⟨round.reads, round.stage⟩ rfl (.inl rfl)
  · exact lineKept_inRound round ⟨round.reads, round.stage⟩ rfl (.inl rfl)

/-- The end of the own transmission: its acts, the rise, and the count of the streak (07 R131). -/
theorem lineKept_riseCounted {s u : State} {clocking drives collided : Bool} {sample : Level} (hs : s.InRound)
    (hu : u.InRound) (lif : u.lif = s.lif) (wku : u.wku = s.wku) :
    s.LineKept ((u.rise clocking drives sample).countStreak collided) :=
  (lineKept_riseAfter hs hu lif wku).trans (lineKept_countStreak ⟨hu.reads, hu.stage⟩)

theorem lineKept_settleEmpty {s : State} (round : s.InRound) : s.LineKept s.settleEmpty := by
  unfold State.settleEmpty
  rw [readOwnHeader_only]
  exact lineKept_riseCounted round ⟨round.reads, nofun⟩ rfl rfl

theorem lineKept_endOwnWindow {s : State} (round : s.InRound) (x : Transmission) (a b : Level) :
    s.LineKept (s.endOwnWindow x a b) := by
  have settles := settles_settleWindow s.readOwnPayload x s.ownCollided a b
  obtain ⟨lif, rdc, wku⟩ : s.readOwnPayload.lif = s.lif ∧ s.readOwnPayload.rdc = s.rdc ∧
      s.readOwnPayload.wku = s.wku := by
    rw [readOwnPayload_only]
    exact ⟨rfl, rfl, rfl⟩
  have reads := (readsLine_of_participation (congrArg _ ((rdc_of_settles settles).trans rdc))).trans round.reads
  unfold State.endOwnWindow
  exact lineKept_riseCounted round ⟨reads, nofun⟩ ((lif_of_settles settles).trans lif)
    ((wku_of_settles settles).trans wku)

theorem lineKept_endOwnBody {s : State} (round : s.InRound) (x : Tx) (payload : List Byte) (check : BitVec 16) :
    s.LineKept (s.endOwnBody x payload check) := by
  unfold State.endOwnBody
  exact lineKept_riseTo round rfl rfl round.reads nofun

/-! ## The windows of other owners, and the mark -/

theorem lineKept_endHeader {s : State} (round : s.InRound) (bytes : List Byte) : s.LineKept (s.endHeader bytes) := by
  have fixed : ∀ e clocking drives sample,
      s.LineKept (((s.withFen e).withRdc { s.rdc with stage := .mark }).rise clocking drives sample) := fun _ _ _ _ =>
    lineKept_riseTo round rfl rfl round.reads nofun
  unfold State.endHeader
  dsimp only
  split
  · split
    · exact fixed _ _ _ _
    · exact (fixed _ _ _ _).trans (lineKept_syncLoss _)
  · exact fixed _ _ _ _

theorem lineKept_sizeWindow {s : State} (round : s.InRound) (n : Nat) {stage : Stage} (inside : stage ≠ .idle) :
    s.LineKept (s.sizeWindow n stage) :=
  lineKept_inRound round ⟨round.reads, inside⟩ rfl (.inl rfl)

theorem lineKept_sizeAtMark {s : State} (round : s.InRound) (stretched : Bool) : s.LineKept (s.sizeAtMark stretched) := by
  unfold State.sizeAtMark
  split
  · split <;> exact lineKept_sizeWindow round _ nofun
  · split
    · split
      · rw [readOwnHeader_only]
        exact lineKept_inRound round ⟨round.reads, nofun⟩ rfl (.inl rfl)
      · exact lineKept_refl s
    · split
      · exact lineKept_sizeWindow round _ nofun
      · split
        · exact lineKept_sizeWindow round _ nofun
        · exact lineKept_syncLoss s

section
variable {s : State}

/-- No mark can follow between rounds (07 R128). -/
theorem stage_of_undo {u : Undo} (kept : s.fen.undo = some u) (wires : s.WiresConsistent) : s.rdc.stage ≠ .idle := by
  obtain ⟨-, place⟩ := (wiresConsistent_iff s).mp wires
  intro stage
  obtain ⟨-, -, none⟩ := place.between stage
  cases none.symm.trans kept

theorem lineKept_undoMark (reads : s.readsLine = true) {u : Undo} (kept : s.fen.undo = some u) (others : Level) :
    s.LineKept (s.undoMark u others) := by
  have judged : ∀ t e, Settles s t → ∀ window clocking drives, s.LineKept
      (((t.withFen e).withRdc { t.rdc with window := window, stage := .judged }).rise clocking drives others) :=
    fun t e settles window clocking drives => lineKept_riseFrom (stage_of_undo kept)
      ((readsLine_of_participation (congrArg Rdc.participation (rdc_of_settles settles))).trans reads :) nofun
      (lif_of_settles settles :) (wku_of_settles settles :)
  unfold State.undoMark
  split
  · exact judged _ _ (settles_undoStart s _) _ _ _
  · exact judged s _ (Settles.refl s) _ _ _

theorem lineKept_keepStart (reads : s.readsLine = true) {u : Undo} (kept : s.fen.undo = some u) (others : Level) :
    s.LineKept (s.keepStart others) :=
  (lineKept_riseFrom (u := s.withFen { s.fen with undo := none }) (stage_of_undo kept) reads (stage_of_undo kept)
    rfl rfl).trans (lineKept_compareCell _ _ _)

theorem stage_of_markDue (due : s.markDue = true) : s.rdc.stage ≠ .idle := by
  simp only [State.markDue, Bool.and_eq_true, Bool.or_eq_true, beq_iff_eq] at due
  rcases due with ⟨-, (⟨stage, -⟩ | ⟨stage, -⟩) | ⟨⟨stage, -⟩, -⟩⟩ <;> simp [stage]

theorem lineKept_markCell (reads : s.readsLine = true) (read : MarkRead) : s.LineKept (s.markCell read) := by
  unfold State.markCell
  dsimp only
  split
  · split
    · exact lineKept_undoMark reads ‹_› _
    · exact lineKept_keepStart reads ‹_› _
  · split
    · rename_i due
      have round : s.InRound := ⟨reads, stage_of_markDue due⟩
      refine ((lineKept_rise round).trans (lineKept_sizeAtMark ?_ _)).trans (lineKept_compareCell _ _ _)
      exact ⟨round.reads, round.stage⟩
    · exact lineKept_refl s

end

theorem lineKept_stuckInMark (s : State) (others : Level) : s.LineKept (s.stuckInMark others) :=
  ((lineKept_holdLow s .wclk).trans (lineKept_takeStuck _)).trans (lineKept_riseReleased _ others)

/-- A frame is presented to the Wake Unit while the station dozes (10 R168). -/
theorem wku_presentToWake (s : State) (h : HeaderFields) :
    (s.presentToWake h).wku = s.wku ∨ (s.presentToWake h).wku.doze = true := by
  unfold State.presentToWake
  split
  · rename_i dozes
    exact .inr dozes
  · exact .inl rfl

theorem wku_applyDecision (s : State) (h : HeaderFields) (good : Bool) (payload : List Byte) :
    (s.applyDecision h good payload).wku = s.wku ∨ (s.applyDecision h good payload).wku.doze = true := by
  have granted : ∀ (t : State) p k, (t.applyGrant p k).wku = t.wku := fun t p k => by
    obtain ⟨_, _, h⟩ := applyGrant_only t p k
    rw [h]
  have accepted : (s.accept h payload).wku = s.wku := by
    obtain ⟨_, _, _, _, h⟩ := accept_only s h payload
    rw [h]
  have updated : ∀ (t : State) p g, (t.updPeer p g).wku = t.wku := fun t p g => by rw [updPeer_only]
  unfold State.applyDecision
  split
  · exact .inl rfl
  · split
    · split
      · refine (wku_presentToWake _ h).imp_left fun same => same.trans ?_
        rw [granted, updated, accepted]
      · exact .inl rfl
    · split
      · exact .inl ((granted _ _ _).trans (updated s _ _))
      · exact .inl rfl
    · split
      · exact (wku_presentToWake _ h).imp_left fun same => same.trans accepted
      · exact .inl rfl

theorem lineKept_applyDecision {s : State} (round : s.InRound) (h : HeaderFields) (good : Bool) (payload : List Byte) :
    s.LineKept (s.applyDecision h good payload) := by
  have wku := wku_applyDecision s h good payload
  obtain ⟨_, _, _, _, _, only⟩ := applyDecision_only s h good payload
  rw [only] at wku ⊢
  exact lineKept_inRound round ⟨round.reads, round.stage⟩ rfl wku

theorem lineKept_endCheck {s : State} (round : s.InRound) (h : HeaderFields) (payload : List Byte)
    (check : BitVec 16) : s.LineKept (s.endCheck h payload check) := by
  have after : (s.checked h payload check).InRound := ⟨round.reads, nofun⟩
  have checked : s.LineKept (s.checked h payload check) :=
    lineKept_riseAfter (u := (s.withFen (s.checked h payload check).fen).withRdc (s.checked h payload check).rdc)
      round ⟨after.reads, after.stage⟩ rfl rfl
  rw [endCheck_eq]
  split
  · exact checked.trans (lineKept_applyDecision after _ _ _)
  · exact checked

theorem lineKept_driveAnswer {s : State} (reads : s.readsLine = true) (d : Decision) : s.LineKept (s.driveAnswer d) := by
  unfold State.driveAnswer
  exact lineKept_fall ⟨reads, nofun⟩ rfl

theorem lineKept_advanceWindow {s : State} (reads : s.readsLine = true) : s.LineKept s.advanceWindow := by
  unfold State.advanceWindow
  dsimp only
  split
  · exact lineKept_fall ⟨reads, nofun⟩ rfl
  · exact lineKept_fall ⟨reads, nofun⟩ rfl

end Sys2Proof.Laws
end

section
/-!
SUPPORT. The local port and the resets keep the laws of silence, wires and rest; with the commands of the line, every
step does.
-/

namespace Sys2Proof.Laws

open Sys2Proof.Machine

/-! ## Requests of the queue ports: off the line -/

/-- An act that leaves the blocks of the line whole, and the slot empty where it was. -/
theorem offLine_of_same {s t : State} (lif : t.lif = s.lif := by rfl) (rdc : t.rdc = s.rdc := by rfl)
    (wku : t.wku = s.wku := by rfl) (fen : t.fen = s.fen := by rfl) (slot : t.osc.slot = s.osc.slot := by rfl) :
    s.OffLine t := by
  refine ⟨lif, rdc, wku, ?_, ?_, ?_, ?_, ?_⟩
  · rw [slot]
    exact id
  all_goals
    rw [fen]
    exact id

theorem offLine_reportMisuse (s : State) (k : MisuseKind) (f : Option FrameNo) : s.OffLine (s.reportMisuse k f) := by
  rw [reportMisuse_only]
  exact offLine_of_same

theorem offLine_takeFrame (s : State) : s.OffLine s.takeFrame := by
  unfold State.takeFrame
  split <;> exact offLine_of_same

theorem offLine_popInboundFrame (s : State) : s.OffLine s.popInboundFrame := by
  unfold State.popInboundFrame
  split
  · exact offLine_of_same
  · dsimp only
    split <;> exact offLine_of_same

/-- Forgetting what a mark would bring back begins nothing in the Frame Engine (log 17). -/
theorem offLine_forgetUndo (s : State) (f : FrameNo) : s.OffLine (s.forgetUndo f) :=
  ⟨rfl, rfl, rfl, id, id, id, id, fun none => Option.map_eq_none_iff.mpr none⟩

theorem offLine_popCompletionFrame (s : State) : s.OffLine s.popCompletionFrame := by
  unfold State.popCompletionFrame
  split
  · exact offLine_of_same
  · split
    · exact State.OffLine.trans offLine_of_same (offLine_forgetUndo _ _)
    · exact offLine_refl s

theorem offLine_withQueue (s : State) (c : FrameClass) (queue : List FrameNo) : s.OffLine (s.withQueue c queue) := by
  cases c <;> exact offLine_of_same

theorem offLine_postFilling (s : State) (f : FrameNo) : s.OffLine (s.postFilling f) := by
  unfold State.postFilling
  split
  · exact offLine_of_same
  · split
    · exact offLine_of_same
    · have recorded : s.OffLine (s.setFrame f (.queued (s.postedQueued f))) := offLine_of_same
      exact (recorded.trans (offLine_withQueue _ _ _)).trans offLine_of_same

theorem offLine_postByte (s : State) (n : Byte) : s.OffLine (s.postByte n) := by
  unfold State.postByte
  split
  · exact offLine_reportMisuse s _ _
  · split
    · exact offLine_postFilling s _
    · exact offLine_reportMisuse s _ _

theorem offLine_updPeer (s : State) (p : Pos) (g : PeerEntry → PeerEntry) : s.OffLine (s.updPeer p g) := by
  rw [updPeer_only]
  exact offLine_of_same

theorem offLine_releaseByte (s : State) (n : Byte) : s.OffLine (s.releaseByte n) := by
  unfold State.releaseByte
  split
  · exact offLine_reportMisuse s _ _
  · split
    · unfold State.releaseHeld
      dsimp only
      split
      · exact State.OffLine.trans offLine_of_same (offLine_updPeer _ _ _)
      · exact offLine_of_same
    · exact offLine_reportMisuse s _ _

theorem offLine_cancelByte (s : State) (n : Byte) : s.OffLine (s.cancelByte n) := by
  unfold State.cancelByte
  split
  · exact offLine_reportMisuse s _ _
  · split
    · rw [completeCancelled_only]
      exact offLine_of_same
    · exact offLine_of_same
    · exact offLine_reportMisuse s _ _

/-! ## Commands -/

/-- The Wake Unit alone changes. -/
theorem lineKept_withWku {s : State} {w : Wku} (rests : s.WakeRests → (s.withWku w).WakeRests) :
    s.LineKept (s.withWku w) :=
  ⟨fun silent => silent, fun wires => wires, rests⟩

theorem lineKept_enterDoze (s : State) : s.LineKept s.enterDoze := by
  unfold State.enterDoze
  split
  · exact lineKept_refl s
  · exact lineKept_withWku (w := { s.zeroCounters.wku with doze := true }) fun _ awake => nomatch awake

theorem lineKept_leaveDoze (s : State) : s.LineKept s.leaveDoze :=
  lineKept_withWku (w := { s.zeroCounters.wku with doze := false, wakeLatch := false }) fun _ _ =>
    ⟨rfl, fun n => by simp [State.wakeEntry, State.zeroCounters]⟩

theorem lineKept_takeRejoin (s : State) : s.LineKept s.takeRejoin := by
  unfold State.takeRejoin
  split
  · rename_i member
    have reads : s.readsLine = true := (readsLine_iff s).mpr (.inr (.inr member))
    refine ⟨fun _ => silentOutOfRound_of_reads reads, fun wires => wires, wakeRests_of (.inl rfl)⟩
  · exact lineKept_enterListening rfl idle_of_wires
  all_goals exact lineKept_refl s

theorem lineKept_afterReset (s : State) (straps : Straps) (mem : List Host.Cell) (epoch : Nat) (x : Txn)
    (sdo : Option Byte) (pending : List Instr) :
    s.LineKept (State.afterReset straps mem epoch x sdo pending) :=
  ⟨fun _ => silentOutOfRound_afterReset straps mem epoch x sdo pending,
    fun _ => wiresConsistent_afterReset straps mem epoch x sdo pending,
    fun _ => wakeRests_afterReset straps mem epoch x sdo pending⟩

/-- A Line Interface at its reset values but for the levels of the wires (log 6). -/
theorem agrees_resetLevels (straps : Straps) (wclk wdat : Level) :
    ({ Lif.atReset straps with wclk := wclk, wdat := wdat } : Lif).Agrees := by
  refine ⟨fun h => (nomatch h), fun h => (nomatch h), ?_, ?_, ?_⟩ <;> exact fun none => absurd none (lt_irrefl 0)

theorem noNewDrive_resetLevels (l : Lif) (straps : Straps) (wclk wdat : Level) :
    l.NoNewDrive { Lif.atReset straps with wclk := wclk, wdat := wdat } :=
  ⟨fun _ => rfl, fun h => (nomatch h), fun _ => rfl, fun h => (nomatch h)⟩

theorem lineKept_softReset (s : State) : s.LineKept s.softReset :=
  (lineKept_afterReset s s.lif.straps s.fpl.mem s.fpl.memEpoch .blocked (some 0) s.pending).trans
    (lineKept_withLif (noNewDrive_resetLevels _ s.lif.straps _ _) fun _ => agrees_resetLevels s.lif.straps _ _)

theorem lineKept_assertReset (s : State) : s.LineKept s.assertReset :=
  (lineKept_withLif (noNewDrive_resetLevels s.lif s.lif.straps _ _)
    fun _ => agrees_resetLevels s.lif.straps s.lif.released.wclk s.lif.released.wdat).trans
    (lineKept_offLine offLine_of_same)

theorem lineKept_commandByte (s : State) (code : Byte) : s.LineKept (s.commandByte code) := by
  unfold State.commandByte
  split
  · exact lineKept_enterDoze s
  · split
    · exact lineKept_leaveDoze s
    · split
      · exact lineKept_takeRejoin s
      · split
        · exact lineKept_softReset s
        · exact (lineKept_offLine (offLine_reportMisuse s _ _))

/-! ## Transactions -/

theorem offLine_updTxn (s : State) (g : ActiveTxn → ActiveTxn) : s.OffLine (s.updTxn g) := by
  unfold State.updTxn
  split <;> exact offLine_of_same

theorem offLine_refuseByte (s : State) (x : ActiveTxn) (k : MisuseKind) (f : FrameNo) :
    s.OffLine (s.refuseByte x k f) := by
  unfold State.refuseByte
  split
  · exact offLine_refl s
  · exact (offLine_reportMisuse s _ _).trans (offLine_updTxn _ _)

theorem offLine_readFrameByte (s : State) (x : ActiveTxn) (a : Nat) : s.OffLine (s.readFrameByte x a).2 := by
  unfold State.readFrameByte
  split
  case h_3 => exact offLine_refuseByte s _ _ _
  all_goals exact offLine_refl s

theorem offLine_readStatus (s : State) (x : ActiveTxn) (i : Nat) : s.OffLine (s.readStatus x i).2 := by
  unfold State.readStatus
  split
  · exact offLine_refl s
  · exact offLine_updTxn s _

theorem offLine_readPeerView (s : State) (x : ActiveTxn) (p : Pos) (i : Nat) : s.OffLine (s.readPeerView x p i).2 := by
  unfold State.readPeerView
  split
  · exact offLine_refl s
  · exact offLine_updTxn s _

theorem offLine_ite {s t : State} {c : Prop} [Decidable c] (h : s.OffLine t) : s.OffLine (if c then t else s) := by
  split
  · exact h
  · exact offLine_refl s

theorem offLine_readPort (s : State) (first : Bool) (x : ActiveTxn) (a : Nat) :
    s.OffLine (s.readPort first x a).2 := by
  unfold State.readPort
  split
  · exact offLine_ite (offLine_takeFrame s)
  · split
    · exact offLine_ite (offLine_popInboundFrame s)
    · split
      · exact offLine_ite (offLine_popCompletionFrame s)
      · split
        · exact offLine_refl s
        · split
          · exact offLine_readStatus s _ _
          · split
            · exact offLine_refl s
            · split
              · exact offLine_readPeerView s _ _ _
              · split <;> exact offLine_refl s

theorem offLine_takeRead (s : State) (first : Bool) (x : ActiveTxn) : s.OffLine (s.takeRead first x) := by
  unfold State.takeRead
  refine (State.OffLine.trans ?_ (offLine_updTxn _ _)).trans offLine_of_same
  split
  · exact offLine_readFrameByte s _ _
  · exact offLine_readPort s _ _ _

theorem offLine_writeFrameByte (s : State) (x : ActiveTxn) (a : Nat) (v : Byte) :
    s.OffLine (s.writeFrameByte x a v) := by
  unfold State.writeFrameByte
  split
  · exact offLine_of_same
  · exact offLine_refuseByte s _ _ _

/-- A write to a wake entry leaves its match counter, and so the rest of the Wake Unit (10 R167). -/
theorem lineKept_updWake {s : State} {n : Fin 3} {g : WakeEntry → WakeEntry}
    (counter : ∀ e, (g e).counter = e.counter) : s.LineKept (s.updWake n g) := by
  refine lineKept_withWku fun rests awake => (rests awake).imp_right fun counters m => ?_
  by_cases hm : m = n
  · subst hm
    simpa [State.wakeEntry, counter] using counters m
  · have apart : n.val ≠ m.val := fun e => hm (Fin.ext e.symm)
    simpa [State.wakeEntry, apart] using counters m

theorem lineKept_ite {s t : State} {c : Prop} [Decidable c] (h : s.LineKept t) : s.LineKept (if c then t else s) := by
  split
  · exact h
  · exact lineKept_refl s

theorem lineKept_writePort (s : State) (first : Bool) (a : Nat) (v : Byte) : s.LineKept (s.writePort first a v) := by
  unfold State.writePort
  split
  · exact lineKept_ite (lineKept_offLine (offLine_postByte s v))
  · split
    · exact lineKept_ite (lineKept_offLine (offLine_releaseByte s v))
    · split
      · exact lineKept_ite (lineKept_offLine (offLine_cancelByte s v))
      · split
        · exact lineKept_ite (lineKept_commandByte s v)
        · split
          · exact lineKept_ite (lineKept_offLine offLine_of_same)
          · split
            · exact lineKept_offLine offLine_of_same
            · split
              · exact lineKept_updWake fun e => setSettingsByte_counter e _ v
              · split
                · exact lineKept_updWake fun e => setTagByte_counter e _ v
                · exact lineKept_refl s

theorem lineKept_takeWrite (s : State) (first : Bool) (x : ActiveTxn) (v : Byte) :
    s.LineKept (s.takeWrite first x v) := by
  unfold State.takeWrite
  refine State.LineKept.trans ?_ (lineKept_offLine (offLine_updTxn _ _))
  split
  · exact (lineKept_offLine (offLine_writeFrameByte s _ _ _))
  · exact lineKept_writePort s _ _ _

theorem lineKept_beginTxn (s : State) (read : Bool) (a : Addr) : s.LineKept (s.beginTxn read a) :=
  lineKept_withLpt s _

theorem lineKept_portRead (s : State) (start : Option Addr) : s.LineKept (s.portRead start) := by
  unfold State.portRead
  split
  · exact lineKept_refl s
  · split
    · exact (lineKept_beginTxn s _ _).trans (lineKept_offLine (offLine_takeRead _ _ _))
    · split
      · exact lineKept_ite (lineKept_offLine (offLine_takeRead s _ _))
      all_goals exact lineKept_refl s

theorem lineKept_portWrite (s : State) (start : Option Addr) (v : Byte) : s.LineKept (s.portWrite start v) := by
  unfold State.portWrite
  split
  · exact lineKept_refl s
  · split
    · exact (lineKept_beginTxn s _ _).trans (lineKept_takeWrite _ _ _ _)
    · split
      · split
        · exact lineKept_refl s
        · exact lineKept_takeWrite s _ _ _
      all_goals exact lineKept_refl s

/-! ## Due commands stand in the round -/

theorem out_of_participation {s : State} (h : s.rdc.participation = .listening ∨ s.rdc.participation = .conflict ∨
    s.rdc.participation = .fault) : s.readsLine = false := by
  unfold State.readsLine
  rcases h with h | h | h <;> rw [h]

theorem inRound_of_stage {s : State} {stage : Stage} (reads : s.readsLine = true) (here : s.rdc.stage = stage)
    (inside : stage ≠ .idle) : s.InRound :=
  ⟨reads, here ▸ inside⟩

/-- A stage given as a test of the command's row. -/
theorem inRound_of_due {s : State} {reads : Bool} {stage : Stage} (due : (reads && s.rdc.stage == stage) = true)
    (reader : reads = true → s.readsLine = true) (inside : stage ≠ .idle) : s.InRound := by
  simp only [Bool.and_eq_true, beq_iff_eq] at due
  exact ⟨reader due.1, due.2 ▸ inside⟩

theorem ownWindow_of_ownSending {s : State} (sending : s.ownSending = true) : s.ownWindow = true := by
  unfold State.ownSending at sending
  split at sending
  · exact (Bool.and_eq_true_iff.mp sending).1
  · cases sending

theorem ownWindow_of_ownCollided {s : State} (collided : s.ownCollided = true) : s.ownWindow = true := by
  unfold State.ownCollided at collided
  split at collided
  · exact (Bool.and_eq_true_iff.mp collided).1
  · cases collided

/-- A claimant compares cells in its header and its body alone (07 R130). -/
theorem stage_of_comparesCell {s : State} {n : Nat} (compares : s.comparesCell n = true) :
    s.rdc.stage = .header ∨ s.rdc.stage = .body := by
  unfold State.comparesCell at compares
  split at compares
  · simp only [Bool.and_eq_true, Bool.or_eq_true, beq_iff_eq] at compares
    exact compares.2.imp And.left And.left
  · cases compares

theorem inRound_of_emptyDue {s : State} (due : s.emptyDue = true) : s.InRound := by
  simp only [State.emptyDue, Bool.and_eq_true, Bool.or_eq_true, beq_iff_eq] at due
  rcases due with ⟨-, ⟨sending, stage⟩ | ⟨collided, stage⟩⟩
  · exact inRound_of_stage (readsLine_of_ownWindow (ownWindow_of_ownSending sending)) stage nofun
  · exact inRound_of_stage (readsLine_of_ownWindow (ownWindow_of_ownCollided collided)) stage nofun

/-- A header is read in a round, to the mark cell (07 R124). -/
theorem inRound_of_readsHeader {s : State} (due : s.readsHeader = true) : s.InRound := by
  simp only [State.readsHeader, Bool.and_eq_true, beq_iff_eq] at due
  obtain ⟨⟨⟨reads, stage⟩, -⟩, -⟩ := due
  exact inRound_of_stage reads stage nofun

theorem inRound_of_awaitsCheck {s : State} {h : HeaderFields} (due : s.awaitsCheck = some h) : s.InRound := by
  simp only [State.awaitsCheck, Option.ite_none_right_eq_some, Bool.and_eq_true, beq_iff_eq] at due
  obtain ⟨⟨⟨reads, stage⟩, -⟩, -⟩ := due
  exact inRound_of_stage reads stage nofun

theorem inRound_of_ownBody {s : State} {x : Tx} (due : s.ownBody = some x) : s.InRound := by
  simp only [State.ownBody, Option.ite_none_right_eq_some, Bool.and_eq_true, beq_iff_eq] at due
  obtain ⟨⟨⟨window, stage⟩, -⟩, -⟩ := due
  exact inRound_of_stage (readsLine_of_ownWindow window) stage nofun

theorem inRound_of_outcomeDue {s : State} (due : s.outcomeDue = true) : s.InRound := by
  simp only [State.outcomeDue, Bool.and_eq_true, Bool.or_eq_true, beq_iff_eq] at due
  obtain ⟨⟨⟨⟨window, -⟩, stage⟩, -⟩, -⟩ := due
  have reads := readsLine_of_ownWindow window
  exact stage.elim (fun stage => inRound_of_stage reads stage nofun) fun stage => inRound_of_stage reads stage nofun

theorem reads_of_windowOver {s : State} (due : s.windowOver = true) : s.readsLine = true := by
  simp only [State.windowOver, Bool.and_eq_true] at due
  obtain ⟨⟨reads, -⟩, -⟩ := due
  exact reads

/-! ## Changes of WDAT between rounds and in a high phase (08 R140, R144, R145) -/

theorem highPhase_iff (s : State) : s.highPhase = true ↔ s.rdc.stage ≠ .idle ∧ s.lif.wclk = .high := by
  simp [State.highPhase]

theorem lineKept_execOpenSeen {s : State} (unopened : s.noOpen = true)
    (place : s.rdc.stage = .idle ∨ s.lif.wclk = .high) : s.LineKept (if s.betweenRounds then
      s.dataFalls.withLif { s.dataFalls.lif with openSeen := true } else s.dataFalls) := by
  have falls : s.LineKept s.dataFalls := lineKept_dataFalls fun wires => by
    obtain ⟨agrees, place'⟩ := (wiresConsistent_iff s).mp wires
    rcases place with stage | high
    · exact (place'.between stage).1
    · refine Bool.eq_false_of_not_eq_true fun driven => ?_
      cases high.symm.trans (agrees.wclk driven)
  split
  · rename_i between
    exact falls.trans (lineKept_openSeen between ((noOpen_iff s).mp unopened).2)
  · exact falls

/-- WDAT rises only where this station does not pull it. -/
theorem releasedWdat_of_rise {s : State} (due : s.lif.openSeen = true ∨ s.dataRises = true)
    (wires : s.WiresConsistent) : s.lif.wdatDrive = false := by
  obtain ⟨-, place⟩ := (wiresConsistent_iff s).mp wires
  rcases due with seen | rises
  · obtain ⟨stage, closed⟩ := place.openSeen seen
    exact (released_of_noOpen stage closed wires).2
  · simp only [State.dataRises, Bool.and_eq_true, Bool.or_eq_true, Bool.not_eq_true', Option.isNone_iff_eq_none,
      beq_iff_eq] at rises
    obtain ⟨⟨closed, -⟩, stage | ⟨-, released⟩⟩ := rises
    · exact (released_of_noOpen stage closed wires).2
    · exact released

/-! ## Steps -/

theorem lineKept_of_next {s t u : State} (h : (.next u : Host.Outcome State Fault Refusal) = .next t)
    (hu : s.LineKept u) : s.LineKept t := by
  cases h
  exact hu

/-- A line command that is due has its effect, and else none. -/
theorem lineKept_of_whenDue {s t after : State} {due : Bool} (h : s.whenDue due after = .next t)
    (hdue : due = true → s.LineKept after) : s.LineKept t := by
  unfold State.whenDue at h
  refine lineKept_of_next h ?_
  split
  · rename_i hd
    exact hdue (Bool.and_eq_true_iff.mp hd).2
  · exact lineKept_refl s

theorem exec_lineKept {c : Instr} {s t : State} (h : exec c s = .next t) : s.LineKept t := by
  cases c with
  | take | popInbound | popCompletion | frameMemoryRead => exact lineKept_of_next h (lineKept_portRead s _)
  | post | release | cancel | doze | resume | rejoin | softReset | badCommand | eventClear | registerWrite
  | frameMemoryWrite => exact lineKept_of_next h (lineKept_portWrite s _ _)
  | transactionEnd => exact lineKept_of_next h (lineKept_withLpt s _)
  | resetAssert =>
    refine lineKept_of_next h ?_
    split
    · exact lineKept_refl s
    · exact lineKept_assertReset s
  | resetRelease straps => exact lineKept_of_next h (lineKept_afterReset s straps _ _ _ _ _)
  | boundary =>
    refine lineKept_of_whenDue h fun listening => ?_
    have out := out_of_participation (.inl (beq_iff_eq.mp listening))
    exact (lineKept_quietUntil (released_of_out out) _).trans (lineKept_enterObserving _)
  | faultRecovery =>
    refine lineKept_of_whenDue h fun fault => ?_
    have out := out_of_participation (.inr (.inr (beq_iff_eq.mp fault)))
    exact (lineKept_quietUntil (released_of_out out) _).trans (lineKept_enterListening rfl idle_of_wires)
  | stuckLine wire => exact lineKept_of_whenDue h fun _ => (lineKept_holdLow s wire).trans (lineKept_takeStuck _)
  | roundStopped =>
    refine lineKept_of_whenDue h fun due => ?_
    split
    · obtain ⟨wclk, wdat, -⟩ := quietUntil_idle s Config.boundary (by decide)
      exact lineKept_enterListening rfl fun _ _ => ⟨wclk, wdat⟩
    · rename_i inRound
      refine lineKept_quietUntil ?_ _
      rcases Bool.or_eq_true_iff.mp ((Bool.or_eq_true_iff.mp due).resolve_left inRound) with conflict | between
      · exact released_of_out (out_of_participation (.inr (.inl (beq_iff_eq.mp conflict))))
      · obtain ⟨between, unopened⟩ := Bool.and_eq_true_iff.mp between
        exact released_of_noOpen ((betweenRounds_iff s).mp between).2 ((noOpen_iff s).mp unopened).2
  | openRound =>
    refine lineKept_of_whenDue h fun due => ?_
    obtain ⟨due, -⟩ := Bool.and_eq_true_iff.mp due
    obtain ⟨between, unopened⟩ := Bool.and_eq_true_iff.mp due
    have released := released_of_noOpen ((betweenRounds_iff s).mp between).2 ((noOpen_iff s).mp unopened).2
    exact (lineKept_quietUntil released _).trans (lineKept_beginOpen between (noOpen_quietUntil unopened _))
  | openComplete =>
    refine lineKept_of_whenDue h fun due => (lineKept_elapse s _).trans (lineKept_startRound ?_ _)
    exact (Bool.and_eq_true_iff.mp due).1
  | openSeen =>
    refine lineKept_of_whenDue h fun due => ?_
    simp only [Bool.and_eq_true, Bool.or_eq_true, beq_iff_eq, highPhase_iff] at due
    obtain ⟨unopened, place⟩ := due
    exact lineKept_execOpenSeen unopened (place.imp_right fun high => high.1.2)
  | roundStart =>
    exact lineKept_of_whenDue h fun due => lineKept_startRound (Bool.and_eq_true_iff.mp due).1 _
  | openAbandoned =>
    exact lineKept_of_whenDue h fun due => lineKept_dataRise (releasedWdat_of_rise (Bool.or_eq_true_iff.mp due))
  | strayClockFall => exact lineKept_of_whenDue h fun _ => lineKept_strayClockFall s
  | sweepRunOut => exact lineKept_of_whenDue h fun _ => lineKept_sweepUp s
  | leadFieldEnd others =>
    exact lineKept_of_whenDue h fun due => lineKept_endLead (inRound_of_due due id nofun) others
  | ownPresenceCellLow =>
    exact lineKept_of_whenDue h fun due => lineKept_conflictAtCell (inRound_of_due due reads_of_isObserving nofun)
  | presenceFieldEnd others =>
    exact lineKept_of_whenDue h fun due => lineKept_endPresence (inRound_of_due due id nofun) others
  | joinFieldEnd others =>
    exact lineKept_of_whenDue h fun due => lineKept_endJoin (inRound_of_due due id nofun) others
  | ownClaimCell others =>
    refine lineKept_of_whenDue h fun due => lineKept_ownClaim ?_ others
    exact inRound_of_due (Bool.and_eq_true_iff.mp due).1 reads_of_isMember nofun
  | claimFieldEnd others =>
    refine lineKept_of_whenDue h fun due => lineKept_endClaim ?_ others
    rcases Bool.or_eq_true_iff.mp due with member | observing
    · exact inRound_of_due member reads_of_isMember nofun
    · exact inRound_of_due observing reads_of_isObserving nofun
  | windowStart =>
    refine lineKept_of_whenDue h fun due => lineKept_beginOwnWindow ?_
    obtain ⟨⟨due, -⟩, -⟩ := (Bool.and_eq_true_iff.mp due).imp_left Bool.and_eq_true_iff.mp
    exact inRound_of_due due readsLine_of_ownWindow nofun
  | collision cell =>
    refine lineKept_of_whenDue h fun due => lineKept_collide ?_ cell
    obtain ⟨sending, compares⟩ := Bool.and_eq_true_iff.mp due
    have reads := readsLine_of_ownWindow (ownWindow_of_ownSending sending)
    rcases stage_of_comparesCell compares with stage | stage <;> exact inRound_of_stage reads stage nofun
  | emptySettlement => exact lineKept_of_whenDue h fun due => lineKept_settleEmpty (inRound_of_emptyDue due)
  | headerEnd bytes => exact lineKept_of_whenDue h fun due => lineKept_endHeader (inRound_of_readsHeader due) bytes
  | markCell read =>
    refine lineKept_of_whenDue h fun due => ?_
    split
    · exact lineKept_stuckInMark s _
    · exact lineKept_markCell (Bool.and_eq_true_iff.mp due).1 read
  | frameCheckEnd payload check =>
    refine lineKept_of_whenDue h fun _ => ?_
    split
    · exact lineKept_endCheck (inRound_of_awaitsCheck ‹_›) _ _ _
    · exact lineKept_endOwnBody (inRound_of_ownBody ‹_›) _ _ _
    · exact lineKept_refl s
  | answerDrive =>
    refine lineKept_of_whenDue h fun due => ?_
    simp only [Bool.and_eq_true] at due
    obtain ⟨⟨⟨member, -⟩, -⟩, -⟩ := due
    split
    · exact lineKept_driveAnswer (reads_of_isMember member) _
    · exact lineKept_refl s
  | outcome a b =>
    refine lineKept_of_whenDue h fun due => ?_
    split
    · exact lineKept_endOwnWindow (inRound_of_outcomeDue due) _ a b
    · exact lineKept_refl s
  | carryDrive =>
    refine lineKept_of_whenDue h fun due => lineKept_beginCarry ?_
    exact reads_of_memberOrObserving (Bool.and_eq_true_iff.mp due).1
  | chainedRoundStart => exact lineKept_of_whenDue h fun due => lineKept_startChained due
  | roundEnd => exact lineKept_of_whenDue h fun due => lineKept_endRound (Bool.and_eq_true_iff.mp due).1
  | windowEnd => exact lineKept_of_whenDue h fun due => lineKept_advanceWindow (reads_of_windowOver due)

theorem lineKept_step {s t : State} (h : step s = .next t) : s.LineKept t := by
  unfold step at h
  split at h
  · exact lineKept_of_next h (lineKept_tick s)
  · rename_i c rest _
    have fetched : s.LineKept { s with pending := rest } := lineKept_offLine offLine_of_same
    exact fetched.trans (exec_lineKept h)

/-- Settles O58: every command and the cell-time keep the laws of silence, wires and rest. -/
theorem silenceAndWiresKept : Obligations.SilenceAndWiresKept := fun _ _ h => by
  obtain ⟨silent, wires, wake⟩ := lineKept_step h
  exact ⟨silent, wires, wake⟩

end Sys2Proof.Laws
end

section
/-!
SUPPORT. Between rounds (06 R102, R103, R107 to R110): what leaving the round does at a station with no transmission, the
counts that lead in and out of it, and the OPEN with a reason.
-/

namespace Sys2Proof.Laws

open Sys2Proof.Machine

/-! ## The traffic side -/

theorem sameTraffic_trans {s t u : State} (h : s.SameTraffic t) (k : t.SameTraffic u) : s.SameTraffic u := by
  unfold State.SameTraffic at h k ⊢
  simp only [h, k, and_self]

theorem sameTraffic_quietUntil (s : State) (n : Nat) : s.SameTraffic (s.quietUntil n) :=
  ⟨rfl, rfl, rfl, rfl, rfl, rfl, rfl, rfl⟩

/-- A station with no transmission leaves the round with its traffic as it was (02 R28, R40). -/
theorem sameTraffic_leaveRound {s : State} (empty : s.osc.slot = none) (entered : Participation) :
    s.SameTraffic (s.leaveRound entered) := by
  unfold State.leaveRound
  rw [withdraw_none empty]
  exact ⟨rfl, rfl, rfl, rfl, rfl, rfl, rfl, rfl⟩

/-! ## Out of the round by the counts -/

/-- Wires read HIGH leave no stuck condition when they are released. -/
theorem not_stuck_released {l : Lif} (wclk : l.wclk = .high) (wdat : l.wdat = .high) (idle : Nat) :
    lineStuck { l.released with idle := idle } = false := by
  have released : l.released.wclk = .high ∧ l.released.wdat = .high :=
    ⟨ite_eq_left_iff.mpr fun _ => wclk, ite_eq_left_iff.mpr fun _ => wdat⟩
  refine lineStuck_quiet _ ?_ ?_
  · exact if_pos released.1
  · exact if_pos (.inl released.2)

/-- With both wires HIGH a station enters LISTENING and goes no further (06 R102). -/
theorem enterListening_of_high {s : State} (wclk : s.lif.wclk = .high) (wdat : s.lif.wdat = .high) :
    s.enterListening = (s.leaveRound .listening).restartIdle := by
  obtain ⟨lif, -⟩ := leaveRound_line s .listening
  refine if_neg ?_
  rw [State.restartIdle, withLif_lif, lif, not_stuck_released wclk wdat]
  exact Bool.false_ne_true

/-- An idle-time count of 24 takes a station with no transmission to LISTENING, and latches no event (06 R103, R107). -/
theorem quietUntil_enterListening {s : State} (empty : s.osc.slot = none) :
    (s.quietUntil Config.boundary).enterListening.OutOfRound .listening ∧
    (s.quietUntil Config.boundary).enterListening.lif.idle = 0 ∧
    s.SameTraffic (s.quietUntil Config.boundary).enterListening := by
  obtain ⟨wclk, wdat, -⟩ := quietUntil_idle s Config.boundary (by decide)
  rw [enterListening_of_high wclk wdat]
  refine ⟨leaveRound_outOfRound _ .listening, rfl, ?_⟩
  exact sameTraffic_trans (sameTraffic_quietUntil s _) (sameTraffic_leaveRound (s := s.quietUntil Config.boundary) empty .listening)

/-- A cell that the station does not drive and that reads LOW takes it to CONFLICT, with WDAT reading LOW and LINE
latched (06 R106, 08 R140). -/
theorem conflictAtCell_spec {s : State} (empty : s.osc.slot = none) :
    s.conflictAtCell.OutOfRound .conflict ∧ s.conflictAtCell.lif.wclk = .high ∧ s.conflictAtCell.lif.wdat = .low ∧
    s.conflictAtCell.peers = s.peers ∧ s.conflictAtCell.fpl = s.fpl ∧ s.conflictAtCell.osc = s.osc ∧
    s.conflictAtCell.ibu = s.ibu ∧ s.conflictAtCell.wku = s.wku ∧
    s.conflictAtCell.lpt = { s.lpt with latched := { s.lpt.latched with line := true } } := by
  obtain ⟨lif, -⟩ := leaveRound_line (s.rise s.clocks false .low) .conflict
  obtain ⟨-, peers, pool, queues, inbound, port, wku, -⟩ :=
    sameTraffic_leaveRound (s := s.rise s.clocks false .low) empty .conflict
  refine ⟨leaveRound_outOfRound _ .conflict, ?_, ?_, peers, pool, queues, inbound, wku, ?_⟩
  · exact congrArg Lif.wclk lif
  · exact congrArg Lif.wdat lif
  · exact congrArg (fun x : Lpt => { x with latched := { x.latched with line := true } }) port

/-- Settles O22: the counts that reach 24, by the participation state, and the own PRESENCE cell. -/
theorem participationByCountsAndCells : Obligations.ParticipationByCountsAndCells := by
  intro s hr
  refine ⟨fun listening => ?_, fun other => ?_, fun fault silent => ?_, fun other => ?_,
    fun observing empty stage => ?_, fun observing empty stage => ?_⟩
  · obtain ⟨wclk, wdat, idle⟩ := quietUntil_idle s Config.boundary (by decide)
    obtain ⟨-, wclkDrive, wdatDrive, phase, -, -⟩ := quiet_keeps s.lif
    exact ⟨_, whenDue_due hr (beq_iff_eq.mpr listening), idle, wclk, wdat, wclkDrive, wdatDrive, phase, rfl, rfl,
      sameTraffic_quietUntil s Config.boundary⟩
  · exact whenDue_not_due (beq_eq_false_iff_ne.mpr other)
  · have out : s.readsLine = false := by simp [State.readsLine, fault]
    obtain ⟨-, -, -, empty, -⟩ := silent out
    exact ⟨_, whenDue_due hr (beq_iff_eq.mpr fault), quietUntil_enterListening empty⟩
  · exact whenDue_not_due (beq_eq_false_iff_ne.mpr other)
  · have stops : (s.isObserving && s.rdc.stage != .idle) = true := by simp [State.isObserving, observing, stage]
    refine ⟨_, whenDue_due hr (by rw [stops, Bool.true_or]), ?_⟩
    rw [if_pos stops]
    exact quietUntil_enterListening empty
  · exact ⟨_, whenDue_due hr (by simp [State.isObserving, observing, stage]), conflictAtCell_spec empty⟩

/-! ## A reason to open (06 R108) -/

/-- The choice goes by the traffic side and the straps, whatever the line and the round are. -/
theorem choice_of_line (s : State) {l : Lif} (straps : l.straps = s.lif.straps) (r : Rdc) :
    ({ s with lif := l, rdc := r } : State).choice = s.choice := by
  cases l
  cases straps
  rfl

theorem sweepOut_iff (s : State) : s.sweepOut = true ↔ ∃ n, s.rdc.sweep = .running n ∧ 65536 ≤ n := by
  unfold State.sweepOut
  cases s.rdc.sweep with
  | running n =>
    refine decide_eq_true_iff.trans ⟨fun past => ⟨n, rfl, past⟩, fun ⟨m, running, past⟩ => ?_⟩
    cases running
    exact past
  | stopped | held => simp

theorem reasonToOpen_member {s : State} (member : s.rdc.participation = .member) : s.reasonToOpen = true ↔
    s.hasTransmission = true ∨ s.rdc.rejoin = true ∨ s.sweepOut = true := by
  simp only [State.reasonToOpen, member, Bool.or_eq_true, or_assoc]

theorem reasonToOpen_observing {s : State} (observing : s.rdc.participation = .observing) : s.reasonToOpen = true ↔
    s.rdc.joinPending = true ∨ s.sweepOut = true := by
  simp only [State.reasonToOpen, observing, Bool.or_eq_true]

/-- A sweep timer that has run out stays so (06 R110). -/
theorem sweepOut_quietUntil {s : State} (out : s.sweepOut = true) (n : Nat) : (s.quietUntil n).sweepOut = true := by
  obtain ⟨m, running, past⟩ := (sweepOut_iff s).mp out
  refine (sweepOut_iff _).mpr ⟨_, congrArg (SweepTimer.elapse · _) running, ?_⟩
  exact le_min (le_refl _) (past.trans (Nat.le_add_right m _))

theorem hasTransmission_quietUntil (s : State) (n : Nat) : (s.quietUntil n).hasTransmission = s.hasTransmission := by
  obtain ⟨straps, -⟩ := quiet_keeps s.lif
  have choice := choice_of_line s (l := (s.quietUntil n).lif) straps (s.quietUntil n).rdc
  exact congrArg (fun x : Option Transmission => s.isMember && x.isSome) choice

/-- A reason does not pass while the wires read HIGH. -/
theorem reasonToOpen_quietUntil {s : State} (between : s.betweenRounds = true) (reason : s.reasonToOpen = true)
    (n : Nat) : (s.quietUntil n).reasonToOpen = true := by
  rcases ((betweenRounds_iff s).mp between).1 with member | observing
  · have quiet : (s.quietUntil n).rdc.participation = .member := member
    rw [reasonToOpen_member quiet, hasTransmission_quietUntil]
    exact ((reasonToOpen_member member).mp reason).imp_right (.imp_right fun out => sweepOut_quietUntil out n)
  · have quiet : (s.quietUntil n).rdc.participation = .observing := observing
    rw [reasonToOpen_observing quiet]
    exact ((reasonToOpen_observing observing).mp reason).imp_right fun out => sweepOut_quietUntil out n

/-- SWEEP_RUN_OUT brings the timer to 65,536, and changes of the Line Interface the counts alone (log 24). -/
theorem sweepUp_running {s : State} {n : Nat} (running : s.rdc.sweep = .running n) :
    ∃ idle clockLow dataLow cellTimer openCount, s.sweepUp = { s with
      lif := { s.lif with
        idle := idle, clockLow := clockLow, dataLow := dataLow, cellTimer := cellTimer, openCount := openCount }
      rdc := { s.rdc with sweep := .running 65536 } } := by
  unfold State.sweepUp
  simp only [running]
  split
  · have out : s.rdc.sweep.elapse (Config.sweepInterval - n) = .running 65536 := by
      rw [running]
      exact congrArg SweepTimer.running (by simp only [Config.sweepInterval]; omega)
    rw [elapse_only, out]
    exact ⟨_, _, _, _, _, rfl⟩
  · exact ⟨s.lif.idle, s.lif.clockLow, s.lif.dataLow, s.lif.cellTimer, s.lif.openCount, rfl⟩

/-- Settles O25: OPEN is due with a reason when the wires have been HIGH for 32 cell-times, and a reason stays one. -/
theorem openWithAReason : Obligations.OpenWithAReason := by
  intro s hr
  refine ⟨fun between unopened reason => ?_, fun between unopened none => ?_, fun bar => ?_, fun n running => ?_,
    fun rests => ?_, fun member => ?_, fun observing => ?_⟩
  · have reason : (s.quietUntil Config.settleGap).reasonToOpen = true :=
      reason.elim (fun now => reasonToOpen_quietUntil between now _) id
    obtain ⟨wclk, -, -⟩ := quietUntil_idle s Config.settleGap (le_refl _)
    obtain ⟨-, drive, -, -, -, -⟩ := quiet_keeps s.lif
    exact ⟨_, whenDue_due hr (by rw [between, unopened, reason]; rfl), rfl, rfl, wclk, rfl, rfl, drive, rfl, rfl,
      sameTraffic_quietUntil s Config.settleGap⟩
  · have none : (s.quietUntil Config.settleGap).reasonToOpen = false := none
    exact whenDue_not_due (by rw [none, Bool.and_false])
  · refine whenDue_not_due (Bool.eq_false_of_not_eq_true fun due => ?_)
    simp only [Bool.and_eq_true] at due
    obtain ⟨⟨between, unopened⟩, -⟩ := due
    obtain ⟨unseen, closed⟩ := (noOpen_iff s).mp unopened
    obtain ⟨-, stage⟩ := (betweenRounds_iff s).mp between
    rcases bar with seen | opened | inside | out
    · cases unseen.symm.trans seen
    · cases opened.symm.trans (congrArg Option.isSome closed)
    · exact inside stage
    · cases out.symm.trans (reads_of_betweenRounds between)
  · obtain ⟨_, _, _, _, _, up⟩ := sweepUp_running running
    refine ⟨s.sweepUp, whenDue_due hr rfl, ?_⟩
    rw [up]
    exact ⟨rfl, (sweepOut_iff _).mpr ⟨65536, rfl, le_refl _⟩, rfl, ⟨rfl, rfl, rfl, rfl, rfl, rfl, rfl, rfl⟩, rfl, rfl, rfl,
      rfl, rfl⟩
  · have stands : s.sweepUp = s := by rcases rests with stopped | held <;> simp only [State.sweepUp, *]
    exact (whenDue_due hr rfl).trans (congrArg _ stands)
  · rw [reasonToOpen_member member, sweepOut_iff]
  · rw [reasonToOpen_observing observing, sweepOut_iff]

end Sys2Proof.Laws
end

section
/-!
SUPPORT. The start and the end of a round (06 R104, R109, R117 to R119) and the fields LEAD and CLAIM (06 R111, R114 to
R116).
-/

namespace Sys2Proof.Machine

/-- The claimants in window order from the lead (06 R115). -/
def State.claimList (s : State) (others : Cells) (lead : Pos) : List Pos := (windowOrder lead).filter (s.claims others)

end Sys2Proof.Machine

namespace Sys2Proof.Laws

open Sys2Proof.Machine

/-! ## The start of a round -/

theorem drivesLine_iff (s : State) : s.drivesLine = true ↔
    s.rdc.participation = .joining ∨ s.rdc.participation = .member := by
  unfold State.drivesLine
  cases s.rdc.participation <;> simp

/-- What the round-start acts leave of the Round Controller, whichever join they take (06 R109, R118). -/
theorem beginRound_fields (s : State) (chain : Nat) :
    (s.beginRound chain).rdc.chain = chain ∧ (s.beginRound chain).rdc.claimants = [] ∧
    (s.beginRound chain).rdc.window = none ∧ (s.beginRound chain).rdc.presence = 0xFFFF ∧
    (s.beginRound chain).rdc.sweep = .held ∧ (s.beginRound chain).rdc.stage = .lead ∧
    (s.beginRound chain).rdc.leadView = s.rdc.leadView ∧ (s.beginRound chain).rdc.streak = s.rdc.streak := by
  rw [beginRound_rdc]
  split
  · exact ⟨rfl, rfl, rfl, rfl, rfl, rfl, rfl, rfl⟩
  · split <;> exact ⟨rfl, rfl, rfl, rfl, rfl, rfl, rfl, rfl⟩

theorem sameTraffic_beginRound (s : State) (chain : Nat) : s.SameTraffic (s.beginRound chain) := by
  rw [State.beginRound, takeJoins_only]
  exact ⟨rfl, rfl, rfl, rfl, rfl, rfl, rfl, rfl⟩

/-- The first bit of a position in the LEAD field: 0, and so driven, below 8 (06 R111). -/
theorem leadBit_iff (p : Pos) : (!(BitVec.ofNat 4 p.val).getLsbD 3) = true ↔ p.val < 8 := by
  revert p
  decide

/-- A station drives the first LEAD cell where it drives its lead view and that lies below 8 (06 R111). -/
theorem drivesFirstLead_iff (s : State) : (!s.leadOut.getLsbD 3) = true ↔
    s.drivesLine = true ∧ ∃ p, s.rdc.leadView = some p ∧ p.val < 8 := by
  unfold State.leadOut
  cases s.drivesLine with
  | false => simp
  | true =>
    cases s.rdc.leadView with
    | none => simp
    | some p => simpa using leadBit_iff p

theorem leadFall_rdc (s : State) (clocking : Bool) : (s.leadFall clocking).rdc = s.rdc := rfl

theorem lif_beginRound (s : State) (chain : Nat) : (s.beginRound chain).lif = s.lif := by
  rw [State.beginRound, takeJoins_only]
  rfl

/-- A round starts from a state that differs from `s` in the sweep timer and the join pending at most. -/
theorem roundStarted_leadFall {s u : State} {joinPending opener clocking : Bool} {chain : Nat} {sweep : SweepTimer}
    (rdc : u.rdc = { s.rdc with sweep := sweep, joinPending := joinPending }) (traffic : s.SameTraffic u)
    (clocks : clocking = (opener || (u.beginRound chain).drivesLine)) :
    s.RoundStarted ((u.beginRound chain).leadFall clocking) joinPending opener chain := by
  obtain ⟨hchain, claimants, window, presence, held, stage, lead, streak⟩ := beginRound_fields u chain
  have joined := beginRound_rdc u chain
  rw [rdc] at joined lead streak
  refine ⟨fun joins => ?_, fun none => ?_, hchain, claimants, window, presence, held, stage, lead, streak, rfl, rfl, rfl,
    rfl, ?_, ?_, sameTraffic_trans (sameTraffic_trans traffic (sameTraffic_beginRound u chain)) ?_⟩
  · rcases joins with ⟨observing, pending⟩ | ⟨member, rejoin⟩
    · have joined := joined.trans (if_pos ⟨observing, pending⟩)
      rw [leadFall_rdc, joined]
      exact ⟨rfl, fun _ => ⟨rfl, rfl, rfl⟩, fun member => by cases observing.symm.trans member⟩
    · have other : ¬ (s.rdc.participation = .observing ∧ joinPending = true) := fun h => by cases member.symm.trans h.1
      have joined := joined.trans ((if_neg other).trans (if_pos ⟨member, rejoin⟩))
      rw [leadFall_rdc, joined]
      exact ⟨rfl, fun observing => (by cases member.symm.trans observing), fun _ => ⟨rfl, rfl, rfl⟩⟩
  · have stays := joined.trans ((if_neg fun h => none (.inl h)).trans (if_neg fun h => none (.inr h)))
    rw [leadFall_rdc, stays]
    exact ⟨rfl, rfl, rfl, rfl⟩
  · change clocking = true ↔ _
    rw [clocks, Bool.or_eq_true, drivesLine_iff]
    rfl
  · refine (drivesFirstLead_iff (u.beginRound chain)).trans ?_
    rw [drivesLine_iff, lead]
    rfl
  · exact ⟨rfl, rfl, rfl, rfl, rfl, rfl, rfl, rfl⟩

/-- Settles O27: the three ways a round starts come to the same acts. -/
theorem roundStartActs : Obligations.RoundStartActs := by
  intro s hr
  refine ⟨fun between opened => ?_, fun between opened => ?_, fun participation stage => ?_⟩
  · refine ⟨_, whenDue_due hr (by rw [between, opened]; rfl), ?_⟩
    exact roundStarted_leadFall (u := s.elapse s.lif.openLeft) rfl ⟨rfl, rfl, rfl, rfl, rfl, rfl, rfl, rfl⟩ rfl
  · refine ⟨_, whenDue_due hr (by rw [between, opened]; rfl), ?_⟩
    exact roundStarted_leadFall (u := s) (joinPending := s.rdc.joinPending) (sweep := s.rdc.sweep) rfl
      ⟨rfl, rfl, rfl, rfl, rfl, rfl, rfl, rfl⟩ rfl
  · have carry : s.readsCarry = true := (readsCarry_iff s).mpr
      ⟨participation, stage.imp_right (.imp_left fun h => by simpa [State.isObserving] using h)⟩
    refine ⟨_, whenDue_due hr carry, ?_⟩
    unfold State.startChained
    rw [completeObservation_eq]
    refine roundStarted_leadFall (sweep := s.rdc.sweep) rfl ⟨rfl, rfl, rfl, rfl, rfl, rfl, rfl, rfl⟩ ?_
    exact (Bool.or_comm _ _).trans (congrArg (fun l : Lif => l.phase != .none || _) (lif_beginRound _ _))

/-! ## The CARRY cell -/

theorem wantsCarry_iff (s : State) : s.wantsCarry = true ↔ s.rdc.participation = .member ∧ s.rdc.chain < 8 ∧
    (s.hasTransmission = true ∨ s.rdc.rejoin = true) := by
  simp only [State.wantsCarry, State.isMember, Bool.and_eq_true, Bool.or_eq_true, beq_iff_eq, decide_eq_true_eq,
    and_assoc]
  rfl

/-- Settles O28: the drive is the station's wish to carry on, and the end is read off its acts. -/
theorem carryAndRoundEnd : Obligations.CarryAndRoundEnd := by
  intro s hr participation
  refine ⟨fun stage => ?_, fun stage released => ?_⟩
  · have due : ((s.isMember || s.isObserving) && s.rdc.stage == .carry) = true := by
      simpa [State.isMember, State.isObserving, stage] using participation
    exact ⟨_, whenDue_due hr due, wantsCarry_iff s, rfl, rfl, ⟨rfl, rfl, rfl, rfl, rfl, rfl, rfl, rfl⟩⟩
  · have carry : s.readsCarry = true := (readsCarry_iff s).mpr
      ⟨participation, stage.imp_right (.imp_left fun h => by simpa [State.isObserving] using h)⟩
    refine ⟨s.endRound, whenDue_due hr (by rw [carry, released]; rfl), ?_⟩
    unfold State.endRound
    rw [completeObservation_eq]
    exact ⟨rfl, rfl, rfl, rfl, rfl, rfl, rfl, rfl, ⟨rfl, rfl, rfl, rfl, rfl, rfl, rfl, rfl⟩⟩

/-! ## LEAD -/

/-- A station that reads the line drives its lead view in the LEAD field unless it observes (06 R111). -/
theorem leadOut_of_reads {s : State} (reads : s.readsLine = true) : s.leadOut = match s.rdc.leadView with
    | some p => if s.rdc.participation = .observing then 15 else BitVec.ofNat 4 p.val
    | none => 15 := by
  unfold State.leadOut State.drivesLine
  rcases (readsLine_iff s).mp reads with h | h | h <;> rw [h] <;> cases s.rdc.leadView <;> rfl

/-- Settles O29: the value read is the AND of what the others leave and what this station does. -/
theorem leadFieldEnd : Obligations.LeadFieldEnd := by
  intro s others hr reads stage own
  have due : (s.readsLine && s.rdc.stage == .lead) = true := by rw [reads, stage]; rfl
  refine ⟨_, whenDue_due hr due, ?_, rfl, ⟨rfl, rfl, rfl, rfl, rfl, rfl, rfl, rfl⟩⟩
  have out : s.leadOut = own := leadOut_of_reads reads
  rw [← out]
  rfl

/-! ## CLAIM -/

/-- Settles O35: the own cell by what the choice yields and, where it yields nothing, by what the others leave. -/
theorem ownClaimCell : Obligations.OwnClaimCell := by
  intro s others hr member stage empty
  have due : exec (.ownClaimCell others) s = .next (s.ownClaim others) :=
    whenDue_due hr (by simp [State.isMember, member, stage, empty])
  rw [due]
  refine ⟨fun f q chosen was => ⟨_, rfl, ?_⟩, fun x chosen other => ⟨_, rfl, ?_⟩, fun none high => ⟨_, rfl, ?_⟩,
    fun none low => ⟨_, rfl, ?_⟩⟩
  · simp only [State.ownClaim, chosen, State.claimSlot, was]
    exact ⟨rfl, rfl, rfl, rfl⟩
  · have slot : s.claimSlot x = s.withOsc { s.osc with slot := some x } := by
      cases x with
      | frame f => exact absurd rfl (other f)
      | creditRetry | newCredit | empty => rfl
    simp only [State.ownClaim, chosen, slot]
    exact ⟨rfl, rfl, rfl, rfl⟩
  · simp only [State.ownClaim, none, high]
    exact ⟨rfl, rfl, rfl, ⟨rfl, rfl, rfl, rfl, rfl, rfl, rfl, rfl⟩⟩
  · simp only [State.ownClaim, none, low]
    obtain ⟨out, wclk, wdat, peers, pool, queues, inbound, wku, port⟩ := conflictAtCell_spec empty
    exact ⟨out, wclk, wdat, port, peers, pool, queues, inbound, wku⟩

/-- Every position has its place in window order (06 R115). -/
theorem mem_windowOrder (lead p : Pos) : p ∈ windowOrder lead :=
  List.mem_map.mpr ⟨p - lead, List.mem_finRange _, add_sub_cancel lead p⟩

/-- Window order rises by the distance from the lead (06 R115). -/
theorem rising_windowOrder (lead : Pos) : (windowOrder lead).Pairwise fun p r => p - lead < r - lead := by
  refine List.pairwise_map.mpr ((List.pairwise_lt_finRange 16).imp fun {i j} lt => ?_)
  rwa [add_sub_cancel_left, add_sub_cancel_left]

theorem claims_iff (s : State) (others : Cells) (p : Pos) : s.claims others p = true ↔
    if s.rdc.participation = .member ∧ p = s.own then s.osc.slot ≠ none else others.getLsbD p.val = false := by
  unfold State.claims State.isMember cellLow
  simp only [Bool.and_eq_true, beq_iff_eq]
  split
  · exact Option.isSome_iff_ne_none
  · exact iff_of_eq (Bool.not_eq_true' _)

section
variable {s : State} {others : Cells} {lead : Pos}

theorem mem_claimList (lead p : Pos) : p ∈ s.claimList others lead ↔
    if s.rdc.participation = .member ∧ p = s.own then s.osc.slot ≠ none else others.getLsbD p.val = false := by
  rw [State.claimList, List.mem_filter, claims_iff]
  exact and_iff_right (mem_windowOrder lead p)

theorem endClaim_nobody (view : s.rdc.leadView = some lead) (nobody : s.claimList others lead = []) :
    (s.endClaim others).rdc = { s.rdc with claimants := [], window := none, stage := .carry } ∧
    (s.endClaim others).fen = s.fen := by
  rw [State.claimList] at nobody
  simp only [State.endClaim, view, Option.getD_some, nobody]
  rw [← view]
  exact ⟨rfl, rfl⟩

theorem endClaim_first (view : s.rdc.leadView = some lead) {first : Pos} {rest : List Pos}
    (list : s.claimList others lead = first :: rest) :
    (s.endClaim others).rdc = { s.rdc with
      claimants := first :: rest, window := some 0, leadView := some (first + 1), stage := .header } ∧
    (s.endClaim others).fen = { s.fen with
      staging := Staging.start first, tx := none, size := none, decision := none
      answerA := false, answerB := false, undo := none } := by
  rw [State.claimList] at list
  simp only [State.endClaim, view, Option.getD_some, list]
  exact ⟨rfl, rfl⟩

theorem claimants_endClaim (view : s.rdc.leadView = some lead) :
    (s.endClaim others).rdc.claimants = s.claimList others lead := by
  cases list : s.claimList others lead with
  | nil => rw [(endClaim_nobody view list).1]
  | cons first rest => rw [(endClaim_first view list).1]

theorem sameTraffic_endClaim (s : State) (others : Cells) : s.SameTraffic (s.endClaim others) := by
  unfold State.endClaim
  dsimp only
  split <;> exact ⟨rfl, rfl, rfl, rfl, rfl, rfl, rfl, rfl⟩

end

/-- Settles O36: the claimants are the positions that claim, filtered from window order. -/
theorem claimFieldEnd : Obligations.ClaimFieldEnd := by
  intro s others lead hr place view claims
  have due : exec (.claimFieldEnd others) s = .next (s.endClaim others) := by
    refine whenDue_due hr ?_
    rcases place with ⟨h, stage⟩ | ⟨h, stage⟩ <;> simp [State.isMember, State.isObserving, h, stage]
  refine ⟨_, due, ?_⟩
  rw [claimants_endClaim view]
  refine ⟨mem_claimList lead, (rising_windowOrder lead).filter _, endClaim_nobody view, fun first rest list => ?_,
    sameTraffic_endClaim s others⟩
  obtain ⟨rdc, fen⟩ := endClaim_first view list
  rw [rdc, fen]
  exact ⟨rfl, rfl, rfl, rfl, rfl, rfl, rfl, rfl⟩

end Sys2Proof.Laws
end

section
/-!
SUPPORT. A collision in the own window (07 R130): which cells the claimant compares, and that it drives no cell after
the one at which it collides.
-/

namespace Sys2Proof.Laws

open Sys2Proof.Machine

/-! ## The claimant and its cells -/

/-- A claimant that has collided drives no later cell (07 R130). -/
theorem drives_after_collision {x : Tx} {c m : Nat} (collided : x.collidedAt = some c) (later : c < m) :
    x.drives m = false := by
  simp [Tx.drives, collided, Nat.not_le.mpr later]

/-- A claimant that has not collided drives exactly the cells of its bits 0 (07 R121). -/
theorem drives_clear {x : Tx} (clear : x.collidedAt = none) (n : Nat) : x.drives n = !x.bit n := by
  simp [Tx.drives, clear]

section
variable {s : State} {x : Tx}

theorem ownDrives_eq (own : s.InOwnWindow x) (n : Nat) : s.ownDrives n = x.drives n := by
  obtain ⟨-, window, tx⟩ := own
  simp [State.ownDrives, window, tx]

/-- The cells that the claimant compares (07 R130): those it releases, in the part of its window now on the line. -/
theorem comparesCell_iff (tx : s.fen.tx = some x) (n : Nat) : s.comparesCell n = true ↔
    x.bit n = true ∧ n < 8 * x.bytes.length ∧
    ((s.rdc.stage = .header ∧ n < 56) ∨ (s.rdc.stage = .body ∧ 56 ≤ n)) := by
  simp only [State.comparesCell, tx, Bool.and_eq_true, Bool.or_eq_true, decide_eq_true_eq, beq_iff_eq, and_assoc]

theorem noteCollision_eq (tx : s.fen.tx = some x) (n : Nat) : s.noteCollision n =
    { s with fen := { s.fen with tx := some { x with collidedAt := some n }, undo := none } } := by
  rw [noteCollision_only, tx]
  rfl

/-- A collision leaves the claimant in its own window, collided there. -/
theorem inOwnWindow_collide (own : s.InOwnWindow x) (n : Nat) :
    (s.collide n).InOwnWindow { x with collidedAt := some n } := by
  obtain ⟨hr, window, tx⟩ := own
  rw [State.collide, noteCollision_eq tx]
  exact ⟨hr, window, rfl⟩

end

/-- Settles O40: a cell that the claimant releases is compared, and its collision stops the drive; a cell that it drives
is not. -/
theorem collisionStopsTheClaimant : Obligations.CollisionStopsTheClaimant := by
  intro s x n own clear within part
  have sending : s.ownSending = true := by rw [ownSending_eq own, clear]; rfl
  have ⟨hr, _, tx⟩ := own
  refine ⟨fun released => ?_, fun driven => ?_⟩
  · have compares := (comparesCell_iff tx n).mpr ⟨released, within, part⟩
    have collided := inOwnWindow_collide own n
    refine ⟨s.collide n, whenDue_due hr (by rw [sending, compares]; rfl), ?_, ownCollided_eq collided, rfl, rfl,
      fun m later => ?_, rfl, rfl, rfl, rfl, rfl, rfl, rfl, rfl, rfl⟩
    · exact congrArg State.fen (noteCollision_eq tx n)
    · rw [ownDrives_eq collided, drives_after_collision rfl later]
  · have compared : s.comparesCell n = false :=
      Bool.eq_false_iff.mpr fun compares => by
        cases driven.symm.trans ((comparesCell_iff tx n).mp compares).1
    exact whenDue_not_due (by rw [compared, Bool.and_false])

end Sys2Proof.Laws
end

section
/-!
SUPPORT. What a reader makes of seven bytes (07 R122 to R124): GOOD fields are legal and sent as the bytes read, and
every list of bytes reads EMPTY, GOOD or BAD.
-/

namespace Sys2Proof.Laws

open Sys2Proof.Machine

/-! ## Codes read back -/

theorem kindOf_eq_some_iff (code : Nat) (k : Kind) : kindOf code = some k ↔ code = kindCode k := by
  refine ⟨fun h => ?_, fun h => h ▸ kindOf_kindCode k⟩
  unfold kindOf at h
  split at h <;> cases h <;> rfl

/-- The class bit of a header's second byte (11 Table 11-1). -/
theorem classBit_classOf (b : Byte) : classBit (classOf (b.getLsbD 5)) = b.toNat / 32 % 2 := by
  rw [BitVec.getLsbD, Nat.testBit_eq_decide_div_mod_eq]
  rcases Nat.mod_two_eq_zero_or_one (b.toNat / 2 ^ 5) with h | h
  · rw [h]
    exact h.symm
  · rw [h]
    exact h.symm

theorem bytesOf16_wordOf (hi lo : Byte) : bytesOf16 (wordOf hi lo) = [hi, lo] :=
  congrArg₂ (fun a b => [a, b]) BitVec.extractLsb'_append_eq_left BitVec.extractLsb'_append_eq_right

theorem ofNat_eq_of_toNat {b : Byte} {n : Nat} (h : n = b.toNat) : BitVec.ofNat 8 n = b := by
  rw [h, BitVec.ofNat_toNat, BitVec.setWidth_eq]

/-! ## Legal fields (07 Table 7-1) -/

theorem legalFields_iff (h : HeaderFields) : legalFields h = true ↔ h.grant ≤ 4 ∧ h.length ≤ 56 ∧
    (h.kind = .message → h.dest ≠ h.source) ∧ (h.kind = .credit → h.dest ≠ h.source ∧ h.length = 0) ∧
    (h.kind = .notice → h.dest = 0 ∧ h.seq = 0 ∧ h.grant = 0) := by
  have length : decide (h.length ≤ Config.maxLength) = decide (h.length ≤ 56) := rfl
  rw [legalFields, length]
  cases h.kind <;> simp [and_assoc]

/-- Fields that a reader finds in six bytes are legal, and a sender of those fields sends these bytes (07 R122). -/
theorem headerBody_of_headerFields {b0 b1 b2 b3 b4 b5 : Byte} {h : HeaderFields}
    (fields : headerFields b0 b1 b2 b3 b4 b5 = some h) :
    legalFields h = true ∧ headerBody h = [b0, b1, b2, b3, b4, b5] := by
  simp only [headerFields, Option.ite_none_right_eq_some] at fields
  obtain ⟨⟨zero1, zero2, zero3⟩, fields⟩ := fields
  split at fields
  · cases fields
  · rename_i k code
    rw [Option.ite_none_right_eq_some] at fields
    obtain ⟨legal, fields⟩ := fields
    cases fields
    have kind := (kindOf_eq_some_iff _ k).mp code
    have cls := classBit_classOf b1
    have byte0 := b0.isLt
    have byte1 := b1.isLt
    refine ⟨legal, ?_⟩
    simp only [headerBody, bytesOf16_wordOf, List.cons_append, List.nil_append, List.cons.injEq, and_true]
    refine ⟨ofNat_eq_of_toNat ?_, ofNat_eq_of_toNat ?_, ofNat_eq_of_toNat ?_, ofNat_eq_of_toNat rfl⟩
    · simp only [Fin.val_ofNat]
      omega
    · simp only [Fin.val_ofNat, ← kind, cls]
      omega
    · omega

/-! ## The header state -/

/-- Seven bytes that read GOOD are those that a sender of the fields read sends (07 R123, R124). -/
theorem encodeHeader_of_readHeader {bytes : List Byte} {h : HeaderFields}
    (good : readHeader bytes = (.good, some h)) : legalFields h = true ∧ bytes = encodeHeader h := by
  unfold readHeader at good
  split at good
  · cases good
  · split at good
    · split at good
      · rename_i fields
        split at good
        · rename_i check
          cases good
          obtain ⟨legal, body⟩ := headerBody_of_headerFields fields
          refine ⟨legal, ?_⟩
          rw [encodeHeader, body, check]
          rfl
        · cases good
      · cases good
    · cases good

theorem readHeader_good_iff (bytes : List Byte) (h : HeaderFields) :
    readHeader bytes = (.good, some h) ↔ legalFields h = true ∧ bytes = encodeHeader h :=
  ⟨encodeHeader_of_readHeader, fun ⟨legal, sent⟩ => sent ▸ readHeader_encodeHeader legal⟩

/-- Every header reads EMPTY, for its own bytes alone, or GOOD with fields, or BAD with none (07 R124). -/
theorem readHeader_cases (bytes : List Byte) :
    (bytes = emptyHeader ∧ readHeader bytes = (.empty, none)) ∨
    (bytes ≠ emptyHeader ∧ ((∃ h, readHeader bytes = (.good, some h)) ∨ readHeader bytes = (.bad, none))) := by
  by_cases empty : bytes = emptyHeader
  · exact .inl ⟨empty, if_pos empty⟩
  · refine .inr ⟨empty, ?_⟩
    unfold readHeader
    rw [if_neg empty]
    split
    · split
      · split
        · exact .inl ⟨_, rfl⟩
        · exact .inr rfl
      · exact .inr rfl
    · exact .inr rfl

theorem readHeader_empty_iff (bytes : List Byte) : readHeader bytes = (.empty, none) ↔ bytes = emptyHeader := by
  refine ⟨fun read => ?_, fun empty => if_pos empty⟩
  rcases readHeader_cases bytes with ⟨empty, -⟩ | ⟨-, ⟨h, good⟩ | bad⟩
  · exact empty
  · cases read.symm.trans good
  · cases read.symm.trans bad

/-- BAD is all that is not EMPTY and that no sender of legal fields sends (07 R124). -/
theorem readHeader_bad_iff (bytes : List Byte) : readHeader bytes = (.bad, none) ↔
    bytes ≠ emptyHeader ∧ ∀ h, legalFields h = true → bytes ≠ encodeHeader h := by
  constructor
  · refine fun bad => ⟨fun empty => ?_, fun h legal sent => ?_⟩
    · cases bad.symm.trans ((readHeader_empty_iff bytes).mpr empty)
    · cases bad.symm.trans ((readHeader_good_iff bytes h).mpr ⟨legal, sent⟩)
  · rintro ⟨notEmpty, unsent⟩
    rcases readHeader_cases bytes with ⟨empty, -⟩ | ⟨-, ⟨h, good⟩ | bad⟩
    · exact absurd empty notEmpty
    · obtain ⟨legal, sent⟩ := encodeHeader_of_readHeader good
      exact absurd sent (unsent h legal)
    · exact bad

/-- The state BAD comes without fields. -/
theorem readHeader_eq_bad {bytes : List Byte} (bad : (readHeader bytes).1 = .bad) :
    readHeader bytes = (.bad, none) := by
  rcases readHeader_cases bytes with ⟨-, read⟩ | ⟨-, ⟨h, read⟩ | read⟩
  · cases bad.symm.trans (congrArg Prod.fst read)
  · cases bad.symm.trans (congrArg Prod.fst read)
  · exact read

/-- Settles O42: the legal fields, and the three header states by the bytes they are read from. -/
theorem headerRoundTrip : Obligations.HeaderRoundTrip :=
  ⟨legalFields_iff, readHeader_good_iff, readHeader_empty_iff, fun bytes =>
    ⟨fun bad => (readHeader_bad_iff bytes).mp (readHeader_eq_bad bad),
      fun unsent => congrArg Prod.fst ((readHeader_bad_iff bytes).mpr unsent)⟩⟩

end Sys2Proof.Laws
end

section
/-!
SUPPORT. The last header cell (07 R124, R132): the header state that a reader fixes, and the sync loss at a GOOD header
of another source than the owner.
-/

namespace Sys2Proof.Machine

/-- The station at the mark cell, after a header that it has read as given (03 R48 to R50). -/
def State.headerFixed (s : State) (bytes : List Byte) (state : HeaderState) (fields : Option HeaderFields) : State :=
  let t := (s.withFen { s.fen with
    staging := { s.fen.staging with
      header := s.headerRead bytes, headerState := state, fields := fields
      checkState := if state = .good then some .arriving else none }
    decision := if state = .bad ∧ s.judges = true then some .damagedBoth else none
    undo := none }).withRdc { s.rdc with stage := .mark }
  t.rise t.clocks (s.ownDrives 55) (levelOf (((s.headerRead bytes).getD 6 0xFF).getLsbD 0))

end Sys2Proof.Machine

namespace Sys2Proof.Laws

open Sys2Proof.Machine

section
variable {s : State} {bytes : List Byte} {owner : Pos}

/-! ## A sync loss -/

/-- Wires whose low counts stand at 0 are not stuck when they are released. -/
theorem not_stuck_released_of_counts {l : Lif} (clockLow : l.clockLow = 0) (dataLow : l.dataLow = 0) (idle : Nat) :
    lineStuck { l.released with idle := idle } = false := by
  refine lineStuck_quiet _ ?_ ?_
  · simp [Lif.released, clockLow]
  · simp [Lif.released, dataLow]

theorem lpt_withdraw (s : State) : s.withdraw.lpt = s.lpt := by
  unfold State.withdraw
  dsimp only
  split
  · rfl
  · rfl
  · rfl
  · split
    · split
      · rfl
      · split
        · rw [completeCancelled_only]; rfl
        · rw [enqueue_only]; rfl
    · rfl
  · rw [updPeer_only]; rfl
  · split
    · split
      · rfl
      · split <;> (rw [updPeer_only]; rfl)
    · rfl

theorem lpt_leaveRound (s : State) (entered : Participation) : (s.leaveRound entered).lpt = s.lpt := lpt_withdraw s

/-- A sync loss right after an edge leads to LISTENING and no further: no count has begun (06 R105, 08 R147). -/
theorem syncLoss_of_counts (clockLow : s.lif.clockLow = 0) (dataLow : s.lif.dataLow = 0) :
    s.syncLoss = (s.latchLine.leaveRound .listening).restartIdle := by
  obtain ⟨lif, -⟩ := leaveRound_line s.latchLine .listening
  refine if_neg ?_
  rw [State.restartIdle, withLif_lif, lif]
  exact Bool.eq_false_iff.mp (not_stuck_released_of_counts clockLow dataLow 0)

theorem syncLoss_spec (clockLow : s.lif.clockLow = 0) (dataLow : s.lif.dataLow = 0) :
    s.syncLoss.OutOfRound .listening ∧ s.syncLoss.lif = { s.lif.released with idle := 0 } ∧
    s.syncLoss.lpt.latched.line = true ∧ s.SameElsewhere s.syncLoss := by
  obtain ⟨lif, -⟩ := leaveRound_line s.latchLine .listening
  rw [syncLoss_of_counts clockLow dataLow]
  refine ⟨leaveRound_outOfRound _ .listening, congrArg (fun l : Lif => { l with idle := 0 }) lif, ?_, ?_⟩
  · exact congrArg (fun x : Lpt => x.latched.line) (lpt_leaveRound s.latchLine .listening)
  · exact sameElsewhere_leaveRound s.latchLine .listening

/-! ## The header read -/

theorem headerEnd_due (hr : s.resetAsserted = false) (reads : s.readsLine = true) (stage : s.rdc.stage = .header)
    (howner : s.windowOwner = some owner) (reader : s.ownWindow = false ∨ s.ownCollided = true) :
    exec (.headerEnd bytes) s = .next (s.endHeader bytes) := by
  refine whenDue_due hr ?_
  rcases reader with reader | reader <;> simp [State.readsHeader, reads, stage, howner, reader]

theorem headerRead_other (other : s.ownWindow = false) : s.headerRead bytes = lineBytes 7 bytes := by
  unfold State.headerRead
  rw [other]
  split <;> rfl

theorem endHeader_unsent {state : HeaderState} (read : readHeader (s.headerRead bytes) = (state, none)) :
    s.endHeader bytes = s.headerFixed bytes state none := by
  simp only [State.endHeader, read]
  rfl

/-- A GOOD header is from the owner of the window, or a sync loss (07 R132). -/
theorem endHeader_good {h : HeaderFields} (read : readHeader (s.headerRead bytes) = (.good, some h)) :
    s.endHeader bytes = if some h.source = s.windowOwner then s.headerFixed bytes .good (some h)
      else (s.headerFixed bytes .good (some h)).syncLoss := by
  simp only [State.endHeader, read]
  rfl

theorem judges_iff (s : State) : s.judges = true ↔ s.drivesLine = true ∧ s.ownWindow = false := by
  rw [State.judges, Bool.and_eq_true, Bool.not_eq_true']

theorem sameTraffic_headerFixed (s : State) (bytes : List Byte) (state : HeaderState) (fields : Option HeaderFields) :
    s.SameTraffic (s.headerFixed bytes state fields) := ⟨rfl, rfl, rfl, rfl, rfl, rfl, rfl, rfl⟩

theorem sameElsewhere_headerFixed (s : State) (bytes : List Byte) (state : HeaderState) (fields : Option HeaderFields) :
    s.SameElsewhere (s.headerFixed bytes state fields) := by
  simp [State.SameElsewhere, State.headerFixed, State.rise]

end

/-- Settles O43: the header state by the bytes read, and the sync loss at a GOOD header of another source. -/
theorem headerEndFixesTheState : Obligations.HeaderEndFixesTheState := by
  intro s bytes owner hr reads stage howner reader read fixes
  have next := headerEnd_due (bytes := bytes) hr reads stage howner reader
  have fixed : ∀ state fields decision, s.endHeader bytes = s.headerFixed bytes state fields →
      (if state = .bad ∧ s.judges = true then some .damagedBoth else none) = decision →
      fixes state fields decision := by
    rintro state fields decision ended rfl
    exact ⟨_, ended ▸ next, rfl, rfl, sameTraffic_headerFixed s bytes state fields⟩
  refine ⟨fun other => headerRead_other other, fun empty => ?_, fun h legal sent source => ?_,
    fun h legal sent source => ?_, fun notEmpty unsent => ?_⟩
  · exact fixed _ _ _ (endHeader_unsent ((readHeader_empty_iff _).mpr empty)) rfl
  · have good := endHeader_good ((readHeader_good_iff _ h).mpr ⟨legal, sent⟩)
    rw [if_pos (by rw [howner, source])] at good
    exact fixed _ _ _ good rfl
  · have good := endHeader_good ((readHeader_good_iff _ h).mpr ⟨legal, sent⟩)
    rw [if_neg (by rw [howner]; exact fun e => source (Option.some.inj e))] at good
    obtain ⟨out, lif, line, same⟩ := syncLoss_spec (s := s.headerFixed bytes .good (some h)) rfl rfl
    exact ⟨_, good ▸ next, out, congrArg Lif.idle lif, line,
      sameElsewhere_trans (sameElsewhere_headerFixed s bytes _ _) same⟩
  · refine fixed _ _ _ (endHeader_unsent ((readHeader_bad_iff _).mpr ⟨notEmpty, unsent⟩)) ?_
    simp only [judges_iff, true_and]

end Sys2Proof.Laws
end

section
/-!
SUPPORT. The answer cells (07 R134) and the end of a window (06 R115): the decision's drives, when a window is over, and
what the step to the next window or to the CARRY cell leaves.
-/

namespace Sys2Proof.Machine

/-- What a mark may bring back, kept at the end of a window that ended as EMPTY (07 R128). -/
def State.undoKept (s : State) : Option Undo :=
  if s.endedEmpty then some { window := s.rdc.window, staging := s.fen.staging, tx := s.fen.tx, start := none }
  else none

/-- FEN past the end of a window, before the next one sets the staging buffer (06 R115, 07 R129). -/
def State.fenPastWindow (s : State) : Fen :=
  { s.fen with
    tx := none, size := none, decision := none, answerA := false, answerB := false, undo := s.undoKept }

end Sys2Proof.Machine

namespace Sys2Proof.Laws

open Sys2Proof.Machine

/-! ## The answer cells -/

theorem drivesA_iff (d : Decision) : d.drivesA = true ↔ d = .accept ∨ d = .damagedBoth := by
  cases d <;> simp [Decision.drivesA]

theorem drivesB_iff (d : Decision) : d.drivesB = true ↔ d = .refuse ∨ d = .damagedBoth ∨ d = .damagedNotice := by
  cases d <;> simp [Decision.drivesB]

section
variable {s : State} {i : Nat}

theorem answerDrive_due {d : Decision} (hr : s.resetAsserted = false) (member : s.rdc.participation = .member)
    (stage : s.rdc.stage = .judged) (other : s.ownWindow = false) (decision : s.fen.decision = some d) :
    exec .answerDrive s = .next (s.driveAnswer d) := by
  refine (whenDue_due hr (by simp [State.isMember, member, stage, other, decision])).trans ?_
  rw [decision]

/-! ## When a window is over -/

/-- EMPTY was read, or sent without a collision and settled (07 R126, R128). -/
theorem endedEmpty_of (stage : s.rdc.stage = .mark)
    (empty : (s.ownWindow = false ∧ s.fen.staging.headerState = .empty) ∨
      (s.osc.slot = none ∧ ∃ x, s.InOwnWindow x ∧ x.collidedAt = none ∧ x.isEmpty = true)) :
    s.endedEmpty = true := by
  rcases empty with ⟨other, read⟩ | ⟨slot, x, own, clear, sent⟩
  · simp [State.endedEmpty, stage, other, read]
  · have sending : s.ownSending = true := by rw [ownSending_eq own, clear]; rfl
    obtain ⟨-, -, tx⟩ := own
    simp [State.endedEmpty, stage, slot, tx, sending, sent]

theorem windowEnd_due (hr : s.resetAsserted = false) (reads : s.readsLine = true) (window : s.rdc.window = some i)
    (atEnd : s.rdc.stage = .answered ∨ s.endedEmpty = true ∨
      (s.rdc.stage = .judged ∧ s.ownWindow = false ∧ (s.fen.decision = none ∨ s.fen.decision = some .silent)) ∨
      ((s.rdc.stage = .judged ∨ s.rdc.stage = .body) ∧ s.ownWindow = true ∧ s.osc.slot = none)) :
    exec .windowEnd s = .next s.advanceWindow := by
  refine whenDue_due hr ?_
  unfold State.windowOver
  rw [reads, window]
  rcases atEnd with stage | empty | ⟨stage, other, decision | decision⟩ | ⟨stage | stage, own, slot⟩
  · simp [stage]
  · simp [empty]
  · simp [stage, other, decision]
  · simp [stage, other, decision, Decision.drivesA, Decision.drivesB]
  · simp [stage, own, slot]
  · simp [stage, own, slot]

/-! ## The step to the next window, or to the CARRY cell -/

theorem advanceWindow_next {p : Pos} (window : s.rdc.window = some i) (next : s.rdc.claimants[i + 1]? = some p) :
    s.advanceWindow = ((s.withRdc { s.rdc with window := some (i + 1), stage := .header }).withFen
      { s.fenPastWindow with staging := Staging.start p }).fall s.clocks
        ((s.lif.wdatDrive && s.fen.answerB) && p == s.own) := by
  simp only [State.advanceWindow, window, Option.getD_some, next]
  rw [← window]
  rfl

theorem advanceWindow_last (window : s.rdc.window = some i) (last : s.rdc.claimants[i + 1]? = none) :
    s.advanceWindow = ((s.withRdc { s.rdc with window := none, stage := .carry }).withFen s.fenPastWindow).fall s.clocks
      (s.lif.wdatDrive && s.fen.answerB) := by
  simp only [State.advanceWindow, window, Option.getD_some, last]
  rw [← window]
  rfl

theorem advanceWindow_spec (window : s.rdc.window = some i) :
    s.advanceWindow.fen = { s.fenPastWindow with staging := s.advanceWindow.fen.staging } ∧
    s.advanceWindow.lif.wclk = .low ∧
    (s.advanceWindow.lif.wdatDrive = true ↔ s.lif.wdatDrive = true ∧ s.fen.answerB = true ∧
      (s.rdc.claimants[i + 1]? = some s.own ∨ s.rdc.claimants[i + 1]? = none)) ∧
    s.SameTraffic s.advanceWindow ∧
    (∀ p, s.rdc.claimants[i + 1]? = some p →
      s.advanceWindow.rdc = { s.rdc with window := some (i + 1), stage := .header } ∧
      s.advanceWindow.fen.staging = Staging.start p) ∧
    (s.rdc.claimants[i + 1]? = none → s.advanceWindow.rdc = { s.rdc with window := none, stage := .carry } ∧
      s.advanceWindow.fen.staging = s.fen.staging) := by
  cases next : s.rdc.claimants[i + 1]? with
  | some p =>
    rw [advanceWindow_next window next]
    refine ⟨rfl, rfl, ?_, ⟨rfl, rfl, rfl, rfl, rfl, rfl, rfl, rfl⟩, fun q same => ?_, nofun⟩
    · show (s.lif.wdatDrive && s.fen.answerB && p == s.own) = true ↔ _
      simp [and_assoc]
    · cases same
      exact ⟨rfl, rfl⟩
  | none =>
    rw [advanceWindow_last window next]
    refine ⟨rfl, rfl, ?_, ⟨rfl, rfl, rfl, rfl, rfl, rfl, rfl, rfl⟩, nofun, fun _ => ⟨rfl, rfl⟩⟩
    show (s.lif.wdatDrive && s.fen.answerB) = true ↔ _
    simp

end

/-- Settles O50: the answer cells by the decision, and the end of a window after its answer cells or after EMPTY. -/
theorem answerCellsAndWindowEnd : Obligations.AnswerCellsAndWindowEnd := by
  intro s hr
  refine ⟨fun d member stage other decision => ?_, fun i reads window atEnd => ?_, fun i reads window stage empty => ?_⟩
  · exact ⟨_, answerDrive_due hr member stage other decision, drivesA_iff d, drivesB_iff d, rfl, rfl, rfl, rfl,
      rfl, rfl, rfl, rfl, rfl, rfl, rfl, rfl⟩
  · obtain ⟨fen, wclk, drive, same, next, last⟩ := advanceWindow_spec window
    have left := fun {α : Type} (field : Fen → α) => congrArg field fen
    exact ⟨_, windowEnd_due hr reads window (atEnd.imp_right .inr), left Fen.tx, left Fen.size, left Fen.decision,
      left Fen.answerA, left Fen.answerB, wclk, drive, same, next, last⟩
  · obtain ⟨fen, wclk, drive, same, next, last⟩ := advanceWindow_spec window
    have ended := endedEmpty_of stage empty
    have kept : s.fenPastWindow.undo =
        some { window := some i, staging := s.fen.staging, tx := s.fen.tx, start := none } :=
      (if_pos ended).trans (by rw [window])
    have left := fun {α : Type} (field : Fen → α) => congrArg field fen
    exact ⟨_, windowEnd_due hr reads window (.inr (.inl ended)), left Fen.tx, left Fen.size, left Fen.decision,
      (left Fen.undo).trans kept, wclk, drive, same, next, last⟩

end Sys2Proof.Laws
end

section
/-!
SUPPORT. The mark cell (07 R127, R128): when it is due, whether its low phase reads stretched, how it sizes the window,
and what its sample is compared with (07 R130).
-/

namespace Sys2Proof.Machine

/-- The rise of the mark cell, with this claimant's drive of its cell 56 (08 R140). -/
def State.riseMark (s : State) (others : Level) : State := s.rise s.clocks (s.ownDrives 56) others

/-- The station past the rise of the first cell of a window that stands after EMPTY, its sample not compared yet
(07 R128, R130). -/
def State.startStands (s : State) (others : Level) : State :=
  (s.withFen { s.fen with undo := none }).rise s.clocks s.lif.wdatDrive others

/-- The window of this claimant sized for the header it sends, which it reads as it sends it (03 R48; log 44). -/
def State.ownSized (s : State) (x : Tx) (size : Nat) : State :=
  (s.withFen { s.fen with staging := { s.fen.staging with header := x.headerOnLine } }).sizeWindow size .body

/-- WCLK has risen, and WDAT was sampled with this drive (08 R140). -/
def State.Sampled (t : State) (drives : Bool) (others : Level) : Prop :=
  t.lif.wclk = .high ∧ t.lif.wdatDrive = drives ∧ t.lif.wdat = if drives then .low else others

end Sys2Proof.Machine

namespace Sys2Proof.Laws

open Sys2Proof.Machine

section
variable {s : State} {x : Tx} {n : Nat} {others : Level}

/-! ## The claimant, sending or not -/

theorem ownSending_of_other (other : s.ownWindow = false) : s.ownSending = false :=
  Bool.eq_false_iff.mpr fun sending => by cases other.symm.trans (ownWindow_of_ownSending sending)

theorem ownSending_of_collided (collided : s.ownCollided = true) : s.ownSending = false := by
  cases tx : s.fen.tx with
  | none => simp only [State.ownSending, tx]
  | some x =>
    simp only [State.ownCollided, tx, Bool.and_eq_true] at collided
    simp [State.ownSending, tx, collided]

theorem exists_own_of_ownSending (hr : s.resetAsserted = false) (sending : s.ownSending = true) :
    ∃ x, s.InOwnWindow x ∧ x.collidedAt = none := by
  have window := ownWindow_of_ownSending sending
  unfold State.ownSending at sending
  split at sending
  · rename_i x tx
    rw [Bool.and_eq_true, Option.isNone_iff_eq_none] at sending
    exact ⟨x, ⟨hr, window, tx⟩, sending.2⟩
  · cases sending

/-! ## The comparison of a sample (07 R130) -/

theorem compareCell_only (s : State) (n : Nat) (others : Level) :
    s.compareCell n others = s.withFen (s.compareCell n others).fen := by
  unfold State.compareCell
  split <;> rfl

theorem compareCell_of_not_sending (silent : s.ownSending = false) : s.compareCell n others = s := by
  simp [State.compareCell, silent]

theorem compareCell_of_not_compared (uncompared : s.comparesCell n = false) : s.compareCell n others = s := by
  simp [State.compareCell, uncompared]

/-- A claimant that has not collided collides at a cell that it compares and that reads LOW. -/
theorem fen_compareCell_own (own : s.InOwnWindow x) (clear : x.collidedAt = none) (n : Nat) (others : Level) :
    (s.compareCell n others).fen = if others = .low ∧ s.comparesCell n = true then
      { s.fen with tx := some { x with collidedAt := some n }, undo := none } else s.fen := by
  have sending : s.ownSending = true := by rw [ownSending_eq own, clear]; rfl
  obtain ⟨-, -, tx⟩ := own
  simp only [State.compareCell, sending, Bool.true_and, Bool.and_eq_true, beq_iff_eq, and_comm]
  split
  · rw [noteCollision_eq tx]
  · rfl

/-- A comparison that changes the station finds it in its own window, not collided, at a cell that it released. -/
theorem compareCell_changes (hr : s.resetAsserted = false) (changes : s.compareCell n others ≠ s) :
    ∃ x, s.InOwnWindow x ∧ x.collidedAt = none ∧ others = .low ∧ s.comparesCell n = true := by
  rcases compareCell_cases s n others with same | ⟨low, sending, compares, -⟩
  · exact absurd same changes
  · obtain ⟨x, own, clear⟩ := exists_own_of_ownSending hr sending
    exact ⟨x, own, clear, low, compares⟩

/-! ## When the mark cell is due -/

theorem markCell_due (hr : s.resetAsserted = false) (reads : s.readsLine = true)
    (due : s.fen.undo ≠ none ∨ s.markDue = true) : exec (.markCell { lowPhase := n, others := others }) s =
      .next (if 256 < n then s.stuckInMark others else s.markCell { lowPhase := n, others := others }) := by
  refine whenDue_due hr ?_
  rcases due with undo | due
  · simp [reads, Option.isSome_iff_ne_none.mpr undo]
  · simp [reads, due]

theorem markDue_of_mark (reads : s.readsLine = true) (stage : s.rdc.stage = .mark)
    (header : s.ownWindow = false ∨ s.osc.slot ≠ some .empty) : s.markDue = true := by
  rcases header with other | slot
  · simp [State.markDue, reads, stage, other]
  · simp [State.markDue, reads, stage, slot]

theorem markDue_of_header (own : s.InOwnWindow x) (clear : x.collidedAt = none) (stage : s.rdc.stage = .header)
    (slot : s.osc.slot ≠ some .empty) : s.markDue = true := by
  have sending : s.ownSending = true := by rw [ownSending_eq own, clear]; rfl
  have reads := readsLine_of_ownWindow (ownWindow_of_ownSending sending)
  simp [State.markDue, reads, stage, sending, slot]

/-! ## The low phase (08 R141) -/

theorem marks_iff (s : State) : s.marks = true ↔
    s.rdc.participation = .member ∧ s.rdc.stage = .mark ∧ s.fen.staging.headerState = .bad := by
  simp [State.marks, State.isMember, and_assoc]

/-- The own mark, like any hold of 2 cell-times, reads stretched. -/
theorem stretched_eq (s : State) (n : Nat) : s.stretched n = (s.marks || decide (2 ≤ n)) := by
  unfold State.stretched
  cases s.marks
  · simp [Config.stretchThreshold]
  · have held : 2 ≤ max n 4 := by omega
    simp [Config.stretchThreshold, Config.markHold, held]

theorem stretched_unmarked (unmarked : s.marks = false) (n : Nat) : s.stretched n = decide (2 ≤ n) := by
  rw [stretched_eq, unmarked, Bool.false_or]

/-! ## The size -/

theorem not_endedEmpty (header : s.fen.staging.headerState ≠ .empty) (silent : s.ownSending = false) :
    s.endedEmpty = false := by
  unfold State.endedEmpty
  split <;> simp [header, silent]

theorem sizeAtMark_empty (empty : s.endedEmpty = true) (stretched : Bool) : s.sizeAtMark stretched =
    if stretched then s.sizeWindow 523 .judged else s.sizeWindow 56 .answered := if_pos empty

theorem sizeAtMark_good {h : HeaderFields} (notEmpty : s.endedEmpty = false) (silent : s.ownSending = false)
    (fields : s.fen.staging.fields = some h) (stretched : Bool) : s.sizeAtMark stretched =
      if stretched then s.sizeWindow 523 .body else s.sizeWindow (8 * h.length + 75) .body := by
  simp only [State.sizeAtMark, notEmpty, silent, fields]
  cases stretched <;> rfl

theorem sizeAtMark_bad (notEmpty : s.endedEmpty = false) (silent : s.ownSending = false)
    (fields : s.fen.staging.fields = none) (stretched : Bool) : s.sizeAtMark stretched =
      if stretched then s.sizeWindow 523 .judged else s.syncLoss := by
  simp only [State.sizeAtMark, notEmpty, silent, fields]
  rfl

theorem sizeAtMark_own (own : s.InOwnWindow x) (clear : x.collidedAt = none) (stage : s.rdc.stage ≠ .mark)
    (stretched : Bool) : s.sizeAtMark stretched =
      s.ownSized x (if stretched then 523 else 8 * x.payload.length + 75) := by
  have sending : s.ownSending = true := by rw [ownSending_eq own, clear]; rfl
  have notEmpty : s.endedEmpty = false := by simp [State.endedEmpty, stage]
  have ⟨_, _, tx⟩ := own
  unfold State.sizeAtMark
  rw [notEmpty, sending, tx, readOwnHeader_eq own, if_pos clear]
  rfl

/-- The cell that sizes it is the claimant's cell 56, in the part of the window now on the line (07 R130). -/
theorem fen_compareCell_ownSized (own : s.InOwnWindow x) (clear : x.collidedAt = none) (fresh : s.fen.undo = none)
    (size : Nat) (others : Level) : ((s.ownSized x size).compareCell 56 others).fen = { s.fen with
      size := some size
      staging := { s.fen.staging with header := x.headerOnLine }
      tx := some (if others = .low ∧ x.bit 56 = true ∧ 56 < 8 * x.bytes.length then
        { x with collidedAt := some 56 } else x) } := by
  have sized : (s.ownSized x size).InOwnWindow x := own
  obtain ⟨-, -, tx⟩ := own
  have compares : (s.ownSized x size).comparesCell 56 = true ↔ x.bit 56 = true ∧ 56 < 8 * x.bytes.length := by
    rw [comparesCell_iff (by exact tx), ← and_assoc]
    exact and_iff_left (.inr ⟨rfl, Nat.le_refl _⟩)
  refine (fen_compareCell_own sized clear 56 others).trans ?_
  simp only [compares]
  split
  · rw [← fresh]
    rfl
  · rw [← tx]
    rfl

/-! ## The mark cell where nothing is undone -/

theorem markCell_fresh (fresh : s.fen.undo = none) (due : s.markDue = true) :
    s.markCell { lowPhase := n, others := others } =
      ((s.riseMark others).sizeAtMark (s.stretched n)).compareCell 56 others := by
  simp only [State.markCell, fresh, due]
  rfl

/-- A window sized by a station that does not compare the cell: the size, the stage, the sample, and nothing else. -/
theorem markCell_sizes {size : Nat} {stage : Stage} (hr : s.resetAsserted = false) (within : n ≤ 256)
    (fresh : s.fen.undo = none) (due : s.markDue = true) (uncompared : s.ownSending = false ∨ stage ≠ .body)
    (sized : (s.riseMark others).sizeAtMark (s.stretched n) = (s.riseMark others).sizeWindow size stage) :
    ∃ t, exec (.markCell { lowPhase := n, others := others }) s = .next t ∧ t.Sampled (s.ownDrives 56) others ∧
      t.fen = { s.fen with size := some size } ∧ t.rdc = { s.rdc with stage := stage } ∧ s.SameTraffic t := by
  have reads : s.readsLine = true := by
    simp only [State.markDue, Bool.and_eq_true] at due
    exact due.1
  have next := markCell_due (n := n) (others := others) hr reads (.inr due)
  rw [if_neg (Nat.not_lt.mpr within), markCell_fresh fresh due, sized] at next
  have kept : ((s.riseMark others).sizeWindow size stage).compareCell 56 others =
      (s.riseMark others).sizeWindow size stage := by
    rcases uncompared with silent | notBody
    · exact compareCell_of_not_sending silent
    · refine compareCell_of_not_compared ?_
      have stage : ((s.riseMark others).sizeWindow size stage).rdc.stage ≠ .body := notBody
      unfold State.comparesCell
      split <;> simp [stage]
  rw [kept] at next
  exact ⟨_, next, ⟨rfl, rfl, rfl⟩, rfl, rfl, rfl, rfl, rfl, rfl, rfl, rfl, rfl, rfl⟩

/-- The mark cell of an own window that sends a frame: sized for its header, and compared as its cell 56 (07 R130). -/
theorem markCell_sending (own : s.InOwnWindow x) (clear : x.collidedAt = none) (within : n ≤ 256)
    (fresh : s.fen.undo = none) (stage : s.rdc.stage = .header) (slot : s.osc.slot ≠ some .empty) :
    ∃ t, exec (.markCell { lowPhase := n, others := others }) s = .next t ∧ t.Sampled (!x.bit 56) others ∧
      t.fen = { s.fen with
        size := some (if 2 ≤ n then 523 else 8 * x.payload.length + 75)
        staging := { s.fen.staging with header := x.headerOnLine }
        tx := some (if others = .low ∧ x.bit 56 = true ∧ 56 < 8 * x.bytes.length then
          { x with collidedAt := some 56 } else x) } ∧
      t.rdc = { s.rdc with stage := .body } ∧ s.SameTraffic t := by
  have ⟨hr, window, tx⟩ := own
  have due := markDue_of_header own clear stage slot
  have next := markCell_due (n := n) (others := others) hr (readsLine_of_ownWindow window) (.inr due)
  have low : s.stretched n = decide (2 ≤ n) := stretched_unmarked (by simp [State.marks, stage]) n
  have risen : (s.riseMark others).InOwnWindow x := own
  rw [if_neg (Nat.not_lt.mpr within), markCell_fresh fresh due,
    sizeAtMark_own risen clear (by exact stage ▸ nofun), low, compareCell_only] at next
  simp only [decide_eq_true_eq] at next
  have drive : s.ownDrives 56 = !x.bit 56 := (ownDrives_eq own 56).trans (drives_clear clear 56)
  refine ⟨_, next, drive ▸ ⟨rfl, rfl, rfl⟩, fen_compareCell_ownSized risen clear fresh _ others, rfl,
    rfl, rfl, rfl, rfl, rfl, rfl, rfl, rfl⟩

/-- An OBSERVING station that read BAD and reads no mark has lost sync (07 R128, R132). -/
theorem markCell_unmarkedBad (hr : s.resetAsserted = false) (observing : s.rdc.participation = .observing)
    (within : n < 2) (fresh : s.fen.undo = none) (stage : s.rdc.stage = .mark)
    (header : s.fen.staging.headerState = .bad) (fields : s.fen.staging.fields = none) :
    ∃ t, exec (.markCell { lowPhase := n, others := others }) s = .next t ∧ t.OutOfRound .listening ∧
      t.lif.idle = 0 ∧ t.lpt.latched.line = true ∧ s.SameElsewhere t ∧
      (s.ownDrives 56 = false → t.Sampled false others) := by
  have reads : s.readsLine = true := (readsLine_iff s).mpr (.inl observing)
  have other : s.ownWindow = false := by simp [State.ownWindow, State.isMember, observing]
  have silent := ownSending_of_other other
  have due := markDue_of_mark reads stage (.inl other)
  have next := markCell_due (n := n) (others := others) hr reads (.inr due)
  have low : s.stretched n = false :=
    (stretched_unmarked (by simp [State.marks, State.isMember, observing]) n).trans
      (decide_eq_false (Nat.not_le.mpr within))
  have notEmpty : (s.riseMark others).endedEmpty = false := not_endedEmpty (by exact header ▸ nofun) silent
  rw [if_neg (by omega), markCell_fresh fresh due, low, sizeAtMark_bad notEmpty silent fields] at next
  obtain ⟨out, lif, line, same⟩ := syncLoss_spec (s := s.riseMark others) rfl rfl
  have noTx : (s.riseMark others).syncLoss.ownSending = false := by
    obtain ⟨-, -, -, -, -, -, -, tx, -⟩ := out
    simp only [State.ownSending, tx]
  rw [if_neg Bool.false_ne_true, compareCell_of_not_sending noTx] at next
  refine ⟨_, next, out, congrArg Lif.idle lif, line, sameElsewhere_trans ?_ same, fun released => ?_⟩
  · exact sameElsewhere_rise s _ _ _
  · rw [State.Sampled, lif, State.riseMark, released]
    exact ⟨rfl, rfl, rfl⟩

/-! ## A line stuck in the mark cell (08 R147) -/

theorem stuckInMark_spec (reads : s.readsLine = true) :
    (s.stuckInMark others).OutOfRound .fault ∧ (s.stuckInMark others).lif.idle = 0 ∧
    (s.stuckInMark others).lif.clockLow = 0 ∧ (s.stuckInMark others).Sampled false others ∧
    s.SameElsewhere (s.stuckInMark others) ∧
    (s.stuckInMark others).lpt = { s.lpt with latched := { s.lpt.latched with line := true } } := by
  have left : s.stuckInMark others = (s.holdLow .wclk).enterFault.rise false false others := by
    rw [State.stuckInMark, takeStuck_of_readsLine (by exact reads)]
  rw [left]
  obtain ⟨participation, -, -, -, openSeen, openCount, rest⟩ := leaveRound_outOfRound (s.holdLow .wclk) .fault
  have elsewhere := sameElsewhere_leaveRound (s.holdLow .wclk) .fault
  refine ⟨⟨participation, rfl, rfl, rfl, openSeen, openCount, rest⟩, rfl, rfl, ⟨rfl, rfl, rfl⟩, elsewhere, ?_⟩
  exact congrArg (fun l : Lpt => { l with latched := { l.latched with line := true } })
    (lpt_leaveRound (s.holdLow .wclk) .fault)

/-! ## The first cell of a window that stands after EMPTY (07 R128) -/

theorem markCell_unmarked (kept : s.fen.undo ≠ none) (unstretched : s.stretched n = false) :
    s.markCell { lowPhase := n, others := others } = s.keepStart others := by
  obtain ⟨u, undo⟩ := Option.ne_none_iff_exists'.mp kept
  simp only [State.markCell, undo, unstretched]
  rfl

theorem keepStart_frame (s : State) (others : Level) :
    (s.keepStart others).Sampled s.lif.wdatDrive others ∧ (s.keepStart others).rdc = s.rdc ∧
    s.SameTraffic (s.keepStart others) := by
  unfold State.keepStart
  rw [compareCell_only]
  exact ⟨⟨rfl, rfl, rfl⟩, rfl, rfl, rfl, rfl, rfl, rfl, rfl, rfl, rfl⟩

/-- Where the cell is the first of the own window, it is compared as its cell 0 (07 R130). -/
theorem keepStart_collides (own : s.InOwnWindow x) (stage : s.rdc.stage = .header) (clear : x.collidedAt = none)
    (released : x.bit 0 = true) (sends : x.bytes ≠ []) :
    (s.keepStart .low).fen = { s.fen with undo := none, tx := some { x with collidedAt := some 0 } } := by
  have ⟨_, _, tx⟩ := own
  have compares : (s.startStands .low).comparesCell 0 = true :=
    (comparesCell_iff (by exact tx) 0).mpr
      ⟨released, Nat.mul_pos (by decide) (List.length_pos_iff.mpr sends), .inl ⟨stage, by decide⟩⟩
  exact (fen_compareCell_own (s := s.startStands .low) own clear 0 .low).trans (if_pos ⟨rfl, compares⟩)

theorem keepStart_stands (hr : s.resetAsserted = false)
    (quiet : ∀ x, ¬ (s.InOwnWindow x ∧ s.rdc.stage = .header ∧ x.collidedAt = none ∧ others = .low ∧
      x.bit 0 = true ∧ x.bytes ≠ [])) :
    (s.keepStart others).fen = { s.fen with undo := none } := by
  by_cases same : (s.startStands others).compareCell 0 others = s.startStands others
  · exact congrArg State.fen same
  · obtain ⟨x, own, clear, low, compares⟩ := compareCell_changes (by exact hr) same
    have ⟨_, _, tx⟩ := own
    obtain ⟨released, within, ⟨stage, -⟩ | ⟨-, far⟩⟩ := (comparesCell_iff tx 0).mp compares
    · exact absurd ⟨own, stage, clear, low, released, fun nothing => by simp [nothing] at within⟩ (quiet x)
    · cases far

end

/-- Settles O44: the size by the header read or sent and by the low phase, and the comparison of the cell's sample. -/
theorem markCellSizesTheWindow : Obligations.MarkCellSizesTheWindow := by
  intro s n others hr reads cell sampled sizes
  have byLowPhase : ∀ {size size' stage stage'}, n ≤ 256 → s.fen.undo = none → s.markDue = true → s.marks = false →
      s.ownSending = false ∨ (stage ≠ .body ∧ stage' ≠ .body) →
      (∀ stretched, (s.riseMark others).sizeAtMark stretched = if stretched then
        (s.riseMark others).sizeWindow size stage else (s.riseMark others).sizeWindow size' stage') →
      (2 ≤ n → sizes size stage) ∧ (n < 2 → sizes size' stage') := by
    intro size size' stage stage' within fresh due unmarked uncompared sized
    have low := stretched_unmarked unmarked n
    refine ⟨fun marked => ?_, fun below => ?_⟩
    · refine markCell_sizes hr within fresh due (uncompared.imp_right And.left) ?_
      rw [low, decide_eq_true marked, sized, if_pos rfl]
    · refine markCell_sizes hr within fresh due (uncompared.imp_right And.right) ?_
      rw [low, decide_eq_false (Nat.not_le.mpr below), sized, if_neg Bool.false_ne_true]
  have unmarked : s.fen.staging.headerState ≠ .bad → s.marks = false := fun header => by simp [State.marks, header]
  refine ⟨fun within fresh stage other header => ?_, fun x within fresh own clear sent stage slot header => ?_,
    fun x within fresh own clear stage slot => markCell_sending own clear within fresh stage slot,
    fun h within fresh stage header fields reader => ?_, fun within fresh stage header fields reader => ?_,
    fun kept stage below => ?_, fun stuck due => ?_⟩
  · have empty := endedEmpty_of stage (.inl ⟨other, header⟩)
    exact byLowPhase within fresh (markDue_of_mark reads stage (.inl other)) (unmarked (by rw [header]; exact nofun))
      (.inr ⟨nofun, nofun⟩) (sizeAtMark_empty (s := s.riseMark others) empty)
  · have empty := endedEmpty_of stage (.inr ⟨slot, x, own, clear, sent⟩)
    exact byLowPhase within fresh (markDue_of_mark reads stage (.inr (by rw [slot]; exact nofun))) (unmarked header)
      (.inr ⟨nofun, nofun⟩) (sizeAtMark_empty (s := s.riseMark others) empty)
  · have silent := reader.elim ownSending_of_other fun collided => ownSending_of_collided collided.1
    have notEmpty := not_endedEmpty (by rw [header]; exact nofun) silent
    exact byLowPhase within fresh (markDue_of_mark reads stage (reader.imp_right And.right))
      (unmarked (by rw [header]; exact nofun)) (.inl silent)
      (sizeAtMark_good (s := s.riseMark others) notEmpty silent fields)
  · have due := markDue_of_mark reads stage (reader.imp_right And.right)
    have silent := reader.elim ownSending_of_other fun collided => ownSending_of_collided collided.1
    have notEmpty := not_endedEmpty (by rw [header]; exact nofun) silent
    refine ⟨fun marked => ?_, fun observing below => markCell_unmarkedBad hr observing below fresh stage header fields⟩
    have stretched : s.stretched n = true := by
      rw [stretched_eq, Bool.or_eq_true, decide_eq_true_eq, marks_iff]
      exact marked.imp_left fun member => ⟨member, stage, header⟩
    refine markCell_sizes hr within fresh due (.inl silent) ?_
    rw [stretched]
    exact sizeAtMark_bad (s := s.riseMark others) notEmpty silent fields true
  · have low : s.stretched n = false :=
      (stretched_unmarked (by simp [State.marks, stage]) n).trans (decide_eq_false (Nat.not_le.mpr below))
    have next := markCell_due (n := n) (others := others) hr reads (.inl kept)
    rw [if_neg (by omega), markCell_unmarked kept low] at next
    obtain ⟨sample, rdc, same⟩ := keepStart_frame s others
    refine ⟨_, next, sample, rdc, same, ?_, keepStart_stands hr⟩
    rintro x ⟨own, stage, clear, rfl, released, sends⟩
    exact keepStart_collides own stage clear released sends
  · have due : s.fen.undo ≠ none ∨ s.markDue = true := by
      rcases due with kept | ⟨stage, other⟩ | ⟨x, own, clear, stage, slot⟩
      · exact .inl kept
      · exact .inr (markDue_of_mark reads stage (.inl other))
      · exact .inr (markDue_of_header own clear stage slot)
    have next := markCell_due (n := n) (others := others) hr reads due
    rw [if_pos stuck] at next
    exact ⟨_, next, stuckInMark_spec reads⟩

end Sys2Proof.Laws
end

section
/-!
SUPPORT. The mark that undoes the acts of the cell after an EMPTY header (07 R128): what each window start takes is
returned by its undoing, and what a mark finds of either kind of start, or of the CARRY decision.
-/

namespace Sys2Proof.Machine

/-- What is undone of the acts at the fall of the cell after an EMPTY header: a window start, or nothing. -/
def State.undone (s : State) (start : Option StartUndo) : State :=
  match start with
  | some w => s.undoStart w
  | none => s

/-- The settlement of a cancelled frame's open sequence, undone (02 R41, 07 R128). -/
def State.unsettleCancelled (s : State) (q : Posted) : State :=
  match q.peer, q.openSeq with
  | some p, some o =>
    if 1 ≤ o.grant then s.updPeer p (fun e => { e with openCredit := none })
    else s.updPeer p (fun e => { e with sendSeq := o.seq })
  | _, _ => s

/-- A frame that the cancel check completed stands in the slot again, with its cancel request (07 R128). -/
def State.slotRestored (s : State) (f : FrameNo) (q : Posted) (creditLast : Bool) : State :=
  (s.setFrame f (.sending q true)).withOsc { s.osc with
    slot := some (.frame f), creditLast := creditLast
    completion := s.osc.completion.filter (fun g => g ≠ f) }

/-- Before the own window starts: a SENDING frame is in no completion queue, a new credit frame in the slot is not built
(04 R75), and an open sequence of a SENDING frame is its peer's send sequence and stands once (02 R24). -/
structure State.SlotUnstarted (s : State) : Prop where
  completion : ∀ f q c, s.frame f = .sending q c → f ∉ s.osc.completion
  unbuilt : ∀ p o, s.osc.slot ≠ some (.newCredit p (some o))
  sequence : ∀ f q c p o, s.frame f = .sending q c → q.peer = some p → q.openSeq = some o →
    (s.peer p).openCredit = none ∧ (s.peer p).sendSeq = o.seq

/-- t has the entries, records and queues of s. -/
structure State.Returned (s t : State) : Prop where
  peers : t.peers = s.peers
  fpl : t.fpl = s.fpl
  osc : t.osc = s.osc

/-- b is a with the acts of the next cell's fall taken, as a mark in that cell finds them: `start` notes a window start,
and undoing it returns all that the acts took. -/
structure State.BeginsCell (a b : State) (u : Undo) (start : Option StartUndo) : Prop where
  kept : b.fen.undo = some { u with start := start }
  returned : a.Returned (b.undone start)
  fen : b.fen = { a.fen with tx := b.fen.tx, undo := b.fen.undo }
  rdc : b.rdc = { a.rdc with stage := b.rdc.stage }
  port : b.lpt = a.lpt ∧ b.ibu = a.ibu ∧ b.wku = a.wku
  reset : b.resetAsserted = a.resetAsserted

end Sys2Proof.Machine

namespace Sys2Proof.Laws

open Sys2Proof.Machine

section
variable {s t : State} {f : FrameNo} {q : Posted} {p : Pos}

/-! ## What an update of an entry takes, another returns -/

/-- An update of an entry is undone by one that gives the entry back, whatever else has changed between them. -/
theorem peers_updPeer_back {g back : PeerEntry → PeerEntry} (own : t.own = s.own)
    (taken : t.peers = (s.updPeer p g).peers) (returned : back (g (s.peer p)) = s.peer p) :
    (t.updPeer p back).peers = s.peers := by
  rw [peers_updPeer] at taken
  rw [peers_updPeer, own]
  by_cases hown : p = s.own
  · rw [if_pos hown] at taken ⊢
    exact taken
  · rw [if_neg hown] at taken ⊢
    have entry : t.peer p = g (s.peer p) := by simp [State.peer, taken]
    rw [entry, returned, taken, Vector.set_set, peers_set_self]

theorem grantReturned_grantBuilt {e : PeerEntry} {k : Nat} (owed : k ≤ e.owed) :
    (e.grantBuilt k).grantReturned k = e := by
  simp [PeerEntry.grantBuilt, PeerEntry.grantReturned, Nat.sub_add_cancel owed]

theorem grantTo_le_owed (s : State) (p : Pos) : s.grantTo p ≤ (s.peer p).owed := Nat.min_le_left _ _

theorem unsettleCancelled_only (s : State) (q : Posted) :
    s.unsettleCancelled q = { s with peers := (s.unsettleCancelled q).peers } := by
  unfold State.unsettleCancelled
  split
  · split <;> exact updPeer_only s _ _
  · rfl

/-- The settlement of a cancelled sequence and its undoing: the sequence stood open, once (07 R128). -/
theorem peers_unsettleCancelled (own : t.own = s.own) {n : Nat} (settled : t.peers = (s.settleCancelled q n).peers)
    (sequence : ∀ p o, q.peer = some p → q.openSeq = some o →
      (s.peer p).openCredit = none ∧ (s.peer p).sendSeq = o.seq) :
    (t.unsettleCancelled q).peers = s.peers := by
  unfold State.settleCancelled at settled
  unfold State.unsettleCancelled
  cases hp : q.peer with
  | none => simpa only [hp] using settled
  | some p =>
    cases ho : q.openSeq with
    | none => simpa only [hp, ho] using settled
    | some o =>
      obtain ⟨closed, seq⟩ := sequence p o hp ho
      simp only [hp, ho] at settled ⊢
      by_cases grant : 1 ≤ o.grant
      · rw [if_pos grant] at settled ⊢
        exact peers_updPeer_back own settled (by rw [← closed])
      · rw [if_neg grant] at settled ⊢
        exact peers_updPeer_back own settled (by rw [← seq]; rfl)

theorem frames_set_self (s : State) (f : FrameNo) : s.fpl.frames.set f (s.frame f) = s.fpl.frames := by
  simp [State.frame]

/-! ## What a window start takes, by the transmission -/

/-- A MESSAGE with no sequence takes one, and a grant from its entry (02 R31, 04 R66). -/
theorem startFrame_granting (hp : q.peer = some p) (ho : q.openSeq = none) :
    s.startFrame f q false = { s with
      peers := (s.updPeer p fun e => e.grantBuilt (s.grantTo p)).peers
      fpl := { s.fpl with frames := s.fpl.frames.set f (.sending
        { q with openSeq := some { seq := (s.peer p).sendSeq, grant := s.grantTo p } } false) }
      osc := { s.osc with creditLast := false }
      fen := s.fen.sends
        { header := encodeHeader (s.poolHeader q { seq := (s.peer p).sendSeq, grant := s.grantTo p })
          payload := s.payloadBytes f q.length, collidedAt := none }
        (.grantBuilt f p (s.grantTo p) s.osc.creditLast) } := by
  simp only [State.startFrame, Bool.false_eq_true, if_false, hp, ho]
  rw [updPeer_only, peers_updPeer_congr (s := s) (t := s.setFrame f _) rfl rfl]
  rfl

/-- A frame with a cancel request completes, its sequence settled, and EMPTY takes its place (02 R42). -/
theorem startFrame_cancelling (s : State) (f : FrameNo) (q : Posted) : s.startFrame f q true = { s with
    peers := (s.settleCancelled q q.attempts).peers
    fpl := { s.fpl with frames := s.fpl.frames.set f (.done (q.doneRecord .cancelled q.attempts)) }
    osc := { s.osc with slot := some .empty, completion := s.osc.completion ++ [f] }
    fen := s.fen.sends (.headerOnly emptyHeader) (.cancelled f q s.osc.creditLast) } := by
  simp only [State.startFrame, if_true]
  rw [completeCancelled_of (s := s) rfl rfl]
  rfl

/-- A new credit frame takes its grant, or finds nothing to grant and becomes EMPTY (04 R75). -/
theorem startWindow_newCredit (slot : s.osc.slot = some (.newCredit p none)) :
    ∃ x y k, k ≤ (s.peer p).owed ∧ (y = .empty ∨ ∃ o, y = .newCredit p (some o)) ∧ s.startWindow = { s with
      peers := (s.updPeer p fun e => e.grantBuilt k).peers
      osc := { s.osc with slot := some y, creditLast := true }
      fen := s.fen.sends x (.creditBuilt p k s.osc.creditLast) } := by
  by_cases nothing : s.grantTo p = 0
  · have same : (s.updPeer p fun e => e.grantBuilt 0).peers = s.peers := by
      rw [peers_updPeer]
      split
      · rfl
      · exact peers_set_self s p
    exact ⟨.headerOnly emptyHeader, .empty, 0, Nat.zero_le _, .inl rfl,
      by rw [same]; exact startWindow_newCredit_empty slot nothing⟩
  · refine ⟨.headerOnly (encodeHeader (s.creditHeader p { seq := (s.peer p).sendSeq, grant := s.grantTo p })),
      .newCredit p (some { seq := (s.peer p).sendSeq, grant := s.grantTo p }), s.grantTo p, grantTo_le_owed s p,
      .inr ⟨_, rfl⟩, ?_⟩
    simp only [State.startWindow, slot, State.startCredit, if_neg nothing]
    rw [updPeer_only]
    rfl

/-! ## What an undoing returns, by its note -/

theorem undoStart_only (s : State) (w : StartUndo) : s.undoStart w = { s with
    peers := (s.undoStart w).peers, fpl := (s.undoStart w).fpl, osc := (s.undoStart w).osc } := by
  unfold State.undoStart
  cases w with
  | header flag => rfl
  | grantBuilt f p k flag =>
    dsimp only
    rw [updPeer_only]
    split <;> rfl
  | cancelled f was flag =>
    dsimp only
    split
    · split
      · split <;> (rw [updPeer_only]; rfl)
      · rfl
    · rfl
  | creditBuilt p k flag =>
    dsimp only
    rw [updPeer_only]
    split <;> rfl

theorem undone_only (s : State) (start : Option StartUndo) : s.undone start = { s with
    peers := (s.undone start).peers, fpl := (s.undone start).fpl, osc := (s.undone start).osc } := by
  cases start with
  | none => rfl
  | some w => exact undoStart_only s w

/-- The grant goes back to owed, and the frame has no sequence again. -/
theorem returned_grantBuilt {c b : Bool} {k : Nat} {o : OpenSeq} (own : t.own = s.own)
    (peers : t.peers = (s.updPeer p fun e => e.grantBuilt k).peers) (owed : k ≤ (s.peer p).owed)
    (fpl : t.fpl = { s.fpl with frames := s.fpl.frames.set f (.sending { q with openSeq := some o } c) })
    (osc : t.osc = { s.osc with creditLast := b }) (was : s.frame f = .sending q c) (ho : q.openSeq = none) :
    s.Returned (t.undoStart (.grantBuilt f p k s.osc.creditLast)) := by
  have record : ((t.updPeer p fun e => e.grantReturned k).setCreditLast s.osc.creditLast).frame f =
      .sending { q with openSeq := some o } c := by
    rw [updPeer_only]
    exact frame_of_set_same (congrArg Fpl.frames fpl)
  have back := peers_updPeer_back (back := fun e => e.grantReturned k) own peers (grantReturned_grantBuilt owed)
  have again : s.fpl.frames.set f (.sending { q with openSeq := none } c) = s.fpl.frames := by
    rw [← ho, ← frames_set_self s f, was, Vector.set_set]
  simp only [State.undoStart, record]
  rw [updPeer_only]
  refine ⟨back, ?_, ?_⟩
  · show { t.fpl with frames := t.fpl.frames.set f (.sending { q with openSeq := none } c) } = s.fpl
    rw [fpl, Vector.set_set, again]
  · show { t.osc with creditLast := s.osc.creditLast } = s.osc
    rw [osc]

/-- The completed frame is in the slot again, to be cancelled, and its sequence is as it was (07 R128). -/
theorem returned_cancelled {n : Nat} {d : DoneRecord} (unstarted : s.SlotUnstarted) (own : t.own = s.own)
    (peers : t.peers = (s.settleCancelled q n).peers)
    (fpl : t.fpl = { s.fpl with frames := s.fpl.frames.set f (.done d) })
    (osc : t.osc = { s.osc with slot := some .empty, completion := s.osc.completion ++ [f] })
    (slot : s.osc.slot = some (.frame f)) (was : s.frame f = .sending q true) :
    s.Returned (t.undoStart (.cancelled f q s.osc.creditLast)) := by
  have record : (t.setCreditLast s.osc.creditLast).frame f = .done d :=
    frame_of_set_same (congrArg Fpl.frames fpl)
  have empty : (t.setCreditLast s.osc.creditLast).osc.slot = some .empty := congrArg Osc.slot osc
  have gone : (s.osc.completion ++ [f]).filter (fun g => g ≠ f) = s.osc.completion := by
    rw [List.filter_append, filter_ne_of_not_mem (unstarted.completion f q true was)]
    simp
  have undone : t.undoStart (.cancelled f q s.osc.creditLast) =
      (t.slotRestored f q s.osc.creditLast).unsettleCancelled q := by
    simp only [State.undoStart, record, empty]
    rfl
  have back : ((t.slotRestored f q s.osc.creditLast).unsettleCancelled q).peers = s.peers :=
    peers_unsettleCancelled own peers fun p o => unstarted.sequence f q true p o was
  rw [undone, unsettleCancelled_only]
  refine ⟨back, ?_, ?_⟩
  · show { t.fpl with frames := t.fpl.frames.set f (.sending q true) } = s.fpl
    rw [fpl, Vector.set_set, ← was, frames_set_self]
  · show { t.osc with
      slot := some (.frame f), creditLast := s.osc.creditLast
      completion := t.osc.completion.filter (fun g => g ≠ f) } = s.osc
    rw [osc, gone, ← slot]

/-- The new credit frame in the slot is not built again, and its grant is owed (07 R128). -/
theorem returned_creditBuilt {b : Bool} {k : Nat} {y : Transmission} (own : t.own = s.own)
    (peers : t.peers = (s.updPeer p fun e => e.grantBuilt k).peers) (owed : k ≤ (s.peer p).owed) (fpl : t.fpl = s.fpl)
    (osc : t.osc = { s.osc with slot := some y, creditLast := b })
    (credit : y = .empty ∨ ∃ o, y = .newCredit p (some o)) (slot : s.osc.slot = some (.newCredit p none)) :
    s.Returned (t.undoStart (.creditBuilt p k s.osc.creditLast)) := by
  have held : ((t.updPeer p fun e => e.grantReturned k).setCreditLast s.osc.creditLast).osc.slot = some y := by
    rw [updPeer_only]
    exact congrArg Osc.slot osc
  have back := peers_updPeer_back (back := fun e => e.grantReturned k) own peers (grantReturned_grantBuilt owed)
  have undone : t.undoStart (.creditBuilt p k s.osc.creditLast) =
      ((t.updPeer p fun e => e.grantReturned k).setCreditLast s.osc.creditLast).setSlot (some (.newCredit p none)) := by
    rcases credit with rfl | ⟨o, rfl⟩ <;> simp only [State.undoStart, held]
  rw [undone, updPeer_only]
  refine ⟨back, fpl, ?_⟩
  show { t.osc with slot := some (.newCredit p none), creditLast := s.osc.creditLast } = s.osc
  rw [osc, ← slot]

/-! ## The window start, and its undoing at the mark of the same cell -/

section
variable {u : Undo} {l : Lif}

theorem undo_sends {e : Fen} (kept : e.undo = some u) (x : Tx) (w : StartUndo) :
    (e.sends x w).undo = some { u with start := some w } := by
  simp [Fen.sends, kept]

/-- A pool frame's start is undone: its record, its sequence and its grant, or its place in the slot. -/
theorem returned_startFrame {c : Bool} (unstarted : s.SlotUnstarted) (slot : s.osc.slot = some (.frame f))
    (was : s.frame f = .sending q c) (kept : s.fen.undo = some u) (straps : l.straps = s.lif.straps) :
    ∃ w, (s.startFrame f q c).fen.undo = some { u with start := some w } ∧
      s.Returned (((s.startFrame f q c).withLif l).undoStart w) := by
  have own : l.straps.pos = s.own := congrArg Straps.pos straps
  cases c with
  | true =>
    rw [startFrame_cancelling]
    exact ⟨_, undo_sends kept _ _, returned_cancelled unstarted own rfl rfl rfl slot was⟩
  | false =>
    cases hp : q.peer with
    | none =>
      rw [startFrame_notice hp]
      exact ⟨_, undo_sends kept _ _, rfl, rfl, rfl⟩
    | some p =>
      cases ho : q.openSeq with
      | some o =>
        rw [startFrame_retry hp ho]
        exact ⟨_, undo_sends kept _ _, rfl, rfl, rfl⟩
      | none =>
        rw [startFrame_granting hp ho]
        exact ⟨_, undo_sends kept _ _, returned_grantBuilt own rfl (grantTo_le_owed s p) rfl rfl was ho⟩

/-- Every window start is undone by what it noted (07 R128). -/
theorem returned_startWindow (unstarted : s.SlotUnstarted) (kept : s.fen.undo = some u) (fresh : u.start = none)
    (straps : l.straps = s.lif.straps) :
    ∃ start, s.startWindow.fen.undo = some { u with start := start } ∧
      s.Returned ((s.startWindow.withLif l).undone start) := by
  have nothing : s.startWindow = s → ∃ start, s.startWindow.fen.undo = some { u with start := start } ∧
      s.Returned ((s.startWindow.withLif l).undone start) := by
    intro same
    rw [same]
    exact ⟨none, fresh ▸ kept, rfl, rfl, rfl⟩
  cases slot : s.osc.slot with
  | none => exact nothing (by simp only [State.startWindow, slot])
  | some y =>
    cases y with
    | frame f =>
      by_cases sending : ∃ q c, s.frame f = .sending q c
      · obtain ⟨q, c, was⟩ := sending
        rw [startWindow_frame slot was]
        obtain ⟨w, noted, returned⟩ := returned_startFrame unstarted slot was kept straps
        exact ⟨some w, noted, returned⟩
      · refine nothing ?_
        simp only [State.startWindow, slot]
        split
        · exact absurd ⟨_, _, ‹_›⟩ sending
        · rfl
    | creditRetry p =>
      cases credit : (s.peer p).openCredit with
      | none => exact nothing (by simp only [State.startWindow, slot, credit])
      | some o =>
        rw [startWindow_creditRetry slot credit]
        exact ⟨_, undo_sends kept _ _, rfl, rfl, rfl⟩
    | newCredit p b =>
      cases b with
      | some o => exact absurd slot (unstarted.unbuilt p o)
      | none =>
        obtain ⟨x, y, k, owed, credit, start⟩ := startWindow_newCredit slot
        rw [start]
        exact ⟨_, undo_sends kept _ _,
          returned_creditBuilt (congrArg Straps.pos straps) rfl owed rfl rfl credit slot⟩
    | empty =>
      rw [startWindow_empty slot]
      exact ⟨_, undo_sends kept _ _, rfl, rfl, rfl⟩

end

end

/-! ## What the mark finds, and what it leaves -/

section
variable {a b s : State} {u : Undo} {start : Option StartUndo}

/-- A frame in SENDING is in the slot alone (01 R3). -/
theorem slotUnstarted_of_placed (placed : s.Placed) (unbuilt : ∀ p o, s.osc.slot ≠ some (.newCredit p (some o)))
    (sequence : ∀ f q c p o, s.frame f = .sending q c → q.peer = some p → q.openSeq = some o →
      (s.peer p).openCredit = none ∧ (s.peer p).sendSeq = o.seq) : s.SlotUnstarted := by
  refine ⟨fun f q c was done => ?_, unbuilt, sequence⟩
  have place := (mem_holding_iff placed (p := .completionQueue) rfl f).mp done
  rw [was] at place
  cases place

theorem slotUnstarted_of_same (unstarted : s.SlotUnstarted) (peers : a.peers = s.peers) (fpl : a.fpl = s.fpl)
    (osc : a.osc = s.osc) : a.SlotUnstarted := by
  refine ⟨fun f q c was => ?_, fun p o => osc ▸ unstarted.unbuilt p o, fun f q c p o was => ?_⟩
  · rw [osc]
    exact unstarted.completion f q c (frame_of_fpl fpl f ▸ was)
  · have entry : a.peer p = s.peer p := by simp only [State.peer, peers]
    rw [entry]
    exact unstarted.sequence f q c p o (frame_of_fpl fpl f ▸ was)

theorem advanceWindow_rdc {i : Nat} (window : s.rdc.window = some i) :
    ∃ w stage, s.advanceWindow.rdc = { s.rdc with window := w, stage := stage } := by
  cases claimant : s.rdc.claimants[i + 1]? with
  | none => exact ⟨none, .carry, by rw [advanceWindow_last window claimant]; rfl⟩
  | some p => exact ⟨some (i + 1), .header, by rw [advanceWindow_next window claimant]; rfl⟩

theorem beginsCell_refl (kept : a.fen.undo = some u) (fresh : u.start = none) : a.BeginsCell a u none :=
  ⟨fresh ▸ kept, ⟨rfl, rfl, rfl⟩, rfl, rfl, ⟨rfl, rfl, rfl⟩, rfl⟩

theorem beginsCell_beginCarry (kept : a.fen.undo = some u) (fresh : u.start = none) :
    a.BeginsCell a.beginCarry u none :=
  ⟨fresh ▸ kept, ⟨rfl, rfl, rfl⟩, rfl, rfl, ⟨rfl, rfl, rfl⟩, rfl⟩

theorem beginsCell_beginOwnWindow (unstarted : a.SlotUnstarted) (kept : a.fen.undo = some u)
    (fresh : u.start = none) : ∃ start, a.BeginsCell a.beginOwnWindow u start := by
  obtain ⟨fen, -, rdc, port, reset, straps, -, -, -, inbound, -, -, -, -, -, -, -, -, -, wake, -⟩ :=
    beginOwnWindow_frame a
  obtain ⟨start, noted, returned⟩ := returned_startWindow (l := a.beginOwnWindow.lif) unstarted kept fresh straps
  exact ⟨start, noted, returned, fen.trans rfl, rdc ▸ rfl, ⟨port, inbound, wake⟩, reset⟩

/-- A window start or a CARRY decision, or a command that was not due. -/
theorem beginsCell_of_next (unstarted : a.SlotUnstarted) (kept : a.fen.undo = some u) (fresh : u.start = none)
    (next : exec .windowStart a = .next b ∨ exec .carryDrive a = .next b) : ∃ start, a.BeginsCell b u start := by
  rcases next with next | next
  · rcases whenDue_next a a.beginOwnWindow (a.ownWindow && a.rdc.stage == .header && a.fen.tx.isNone &&
      a.osc.slot.isSome) with due | due
    · cases Host.Outcome.next.inj (due.symm.trans next)
      exact beginsCell_beginOwnWindow unstarted kept fresh
    · cases Host.Outcome.next.inj (due.symm.trans next)
      exact ⟨none, beginsCell_refl kept fresh⟩
  · rcases whenDue_next a a.beginCarry ((a.isMember || a.isObserving) && a.rdc.stage == .carry) with due | due
    · cases Host.Outcome.next.inj (due.symm.trans next)
      exact ⟨none, beginsCell_beginCarry kept fresh⟩
    · cases Host.Outcome.next.inj (due.symm.trans next)
      exact ⟨none, beginsCell_refl kept fresh⟩

/-- The mark returns what the acts took, and the EMPTY window goes on to 523 cells (07 R128, 08 R140). -/
theorem undoMark_spec (begins : a.BeginsCell b u start) (others : Level) :
    let t := b.undoMark { u with start := start } others
    t.lif.wdatDrive = b.lif.wdatDrive ∧ t.lif.wdat = (if b.lif.wdatDrive then .low else others) ∧
    a.Returned t ∧ t.lpt = a.lpt ∧ t.ibu = a.ibu ∧ t.wku = a.wku ∧
    t.fen = { a.fen with staging := u.staging, tx := u.tx, size := some 523, decision := none, undo := none } ∧
    t.rdc = { a.rdc with window := u.window, stage := .judged } := by
  obtain ⟨-, returned, fen, rdc, ⟨port, inbound, wake⟩, -⟩ := begins
  have marked : b.undoMark { u with start := start } others =
      (((b.undone start).withFen { (b.undone start).fen with
        staging := u.staging, tx := u.tx, size := some 523, decision := none, undo := none }).withRdc
          { (b.undone start).rdc with window := u.window, stage := .judged }).rise
            (b.undone start).clocks b.lif.wdatDrive others := by
    cases start <;> rfl
  rw [undone_only] at marked
  rw [marked]
  refine ⟨rfl, rfl, ⟨returned.peers, returned.fpl, returned.osc⟩, port, inbound, wake, ?_, ?_⟩
  · show { b.fen with staging := u.staging, tx := u.tx, size := some 523, decision := none, undo := none } = _
    rw [fen]
  · show { b.rdc with window := u.window, stage := .judged } = _
    rw [rdc]

theorem markCell_undoes (begins : a.BeginsCell b u start) (hr : a.resetAsserted = false) (reads : a.readsLine = true)
    {n : Nat} (marked : 2 ≤ n) (within : n ≤ 256) (others : Level) :
    exec (.markCell { lowPhase := n, others := others }) b = .next (b.undoMark { u with start := start } others) := by
  have readsB : b.readsLine = true := by
    rw [← reads]
    exact readsLine_of_participation (by rw [begins.rdc])
  have kept : b.fen.undo ≠ none := by rw [begins.kept]; exact nofun
  have stretched : b.stretched n = true := by rw [stretched_eq, decide_eq_true marked, Bool.or_true]
  refine (markCell_due (begins.reset.trans hr) readsB (.inl kept)).trans ?_
  rw [if_neg (Nat.not_lt.mpr within)]
  simp only [State.markCell, begins.kept, stretched, if_true]

end

/-- Settles O45: the next cell's acts, whichever they are, note what they took, and the mark returns it. -/
theorem markUndoesTheWindowStart : Obligations.MarkUndoesTheWindowStart := by
  intro s a b t n others hr atEnd empty placed unbuilt sequence ended next mark marked within
  have reads := reads_of_windowOver atEnd
  obtain ⟨i, window⟩ : ∃ i, s.rdc.window = some i := by
    simp only [State.windowOver, Bool.and_eq_true, Option.isSome_iff_exists] at atEnd
    obtain ⟨⟨-, window⟩, -⟩ := atEnd
    exact window
  cases Host.Outcome.next.inj ((windowEnd_due hr reads window (.inr (.inl empty))).symm.trans ended)
  obtain ⟨fen, -, -, ⟨reset, peers, fpl, osc, ibu, lpt, wku, -⟩, -⟩ := advanceWindow_spec window
  obtain ⟨w, stage, rdc⟩ := advanceWindow_rdc window
  have kept : s.advanceWindow.fen.undo = s.undoKept := congrArg Fen.undo fen
  have unstarted := slotUnstarted_of_same (slotUnstarted_of_placed placed unbuilt sequence) peers fpl osc
  obtain ⟨start, begins⟩ := beginsCell_of_next unstarted (kept.trans (if_pos empty)) rfl next
  have readsA : s.advanceWindow.readsLine = true :=
    (readsLine_of_participation (by rw [rdc])).trans reads
  cases Host.Outcome.next.inj ((markCell_undoes begins (reset.trans hr) readsA marked within others).symm.trans mark)
  obtain ⟨drive, sample, returned, port, inbound, wake, fenAfter, rdcAfter⟩ := undoMark_spec begins others
  refine ⟨drive, sample, returned.peers.trans peers, returned.fpl.trans fpl, returned.osc.trans osc, port.trans lpt,
    inbound.trans ibu, wake.trans wku, ?_, ?_⟩
  · rw [fenAfter, fen]
    rfl
  · rw [rdcAfter, rdc]

end Sys2Proof.Laws
end

section
/-!
SUPPORT. The queue of waiting commands: every operation of the machine leaves it as it was. Operations that settle
entries, records and queues, or that leave the round, keep it by what the lemmas on them say; the others by their
branches.
-/

namespace Sys2Proof.Laws

open Sys2Proof.Machine

/-! ## Settlements and the way out of the round -/

theorem pending_of_settles {s t : State} (h : Settles s t) : t.pending = s.pending := by
  obtain ⟨_, _, _, _, rfl⟩ := h
  rfl

theorem pending_of_starts {s t : State} (h : Starts s t) : t.pending = s.pending := by
  obtain ⟨_, _, _, _, _, rfl⟩ := h
  rfl

theorem pending_leaveRound (s : State) (entered : Participation) : (s.leaveRound entered).pending = s.pending := by
  obtain ⟨-, kept, -⟩ := leaveRound_keeps s entered
  exact kept

theorem pending_enterFault (s : State) : s.enterFault.pending = s.pending := pending_leaveRound s .fault

theorem pending_enterConflict (s : State) : s.enterConflict.pending = s.pending := pending_leaveRound s .conflict

theorem pending_enterListening (s : State) : s.enterListening.pending = s.pending := by
  unfold State.enterListening
  dsimp only
  split
  · exact (pending_enterFault _).trans (pending_leaveRound s .listening)
  · exact pending_leaveRound s .listening

theorem pending_takeStuck (s : State) : s.takeStuck.pending = s.pending := by
  unfold State.takeStuck
  split
  case h_5 | h_6 => rfl
  all_goals exact pending_enterFault s

/-! ## Between rounds, the start of a round, the CARRY cell -/

theorem pending_holdLow (s : State) (wire : Wire) : (s.holdLow wire).pending = s.pending := by cases wire <;> rfl

theorem pending_sweepUp (s : State) : s.sweepUp.pending = s.pending := by
  unfold State.sweepUp
  split
  · split <;> rfl
  all_goals rfl

theorem pending_beginRound (s : State) (chain : Nat) : (s.beginRound chain).pending = s.pending := by
  obtain ⟨-, -, -, -, -, -, -, kept⟩ := sameTraffic_beginRound s chain
  exact kept

theorem pending_completeObservation (s : State) : s.completeObservation.pending = s.pending := by
  rw [completeObservation_eq]
  rfl

theorem pending_startChained (s : State) : s.startChained.pending = s.pending :=
  (pending_beginRound _ _).trans (pending_completeObservation s)

/-! ## Fields -/

theorem pending_conflictAtCell (s : State) : s.conflictAtCell.pending = s.pending := pending_enterConflict _

theorem pending_endPresence (s : State) (others : Cells) : (s.endPresence others).pending = s.pending := by
  unfold State.endPresence
  dsimp only
  split
  · exact pending_conflictAtCell s
  · split
    · exact (pending_of_settles (settles_foldl (settles_countPresence (others &&& s.presenceOut))
        (s.presenceKept others).peerPositions (s.presenceKept others)) :)
    · rfl

theorem pending_memberJoins (s : State) (cells : Cells) : (s.memberJoins cells).pending = s.pending := by
  have joined := pending_of_settles (settles_foldl (settles_processJoin cells) s.peerPositions s)
  unfold State.memberJoins
  dsimp only
  split <;> exact joined

theorem pending_endJoin (s : State) (others : Cells) : (s.endJoin others).pending = s.pending := by
  unfold State.endJoin
  split
  · exact pending_memberJoins s _
  · exact (pending_of_settles (settles_foldl (settles_setEntry (others &&& s.joinOut)) s.peerPositions s) :)
  all_goals rfl

theorem pending_ownClaim (s : State) (others : Level) : (s.ownClaim others).pending = s.pending := by
  unfold State.ownClaim
  split
  · exact (pending_of_settles (settles_claimSlot s _) :)
  · split
    · exact pending_conflictAtCell s
    · rfl

theorem pending_endClaim (s : State) (others : Cells) : (s.endClaim others).pending = s.pending := by
  obtain ⟨-, -, -, -, -, -, -, kept⟩ := sameTraffic_endClaim s others
  exact kept

/-! ## Windows -/

theorem pending_beginOwnWindow (s : State) : s.beginOwnWindow.pending = s.pending :=
  (pending_of_starts (starts_startWindow s) :)

theorem pending_compareCell (s : State) (n : Nat) (others : Level) : (s.compareCell n others).pending = s.pending := by
  rw [compareCell_only]
  rfl

theorem pending_readOwnHeader (s : State) : s.readOwnHeader.pending = s.pending := by
  rw [readOwnHeader_only]

theorem pending_readOwnPayload (s : State) : s.readOwnPayload.pending = s.pending := by
  rw [readOwnPayload_only]

theorem pending_countStreak (s : State) (collided : Bool) : (s.countStreak collided).pending = s.pending := by
  unfold State.countStreak
  split
  · split
    · exact pending_enterConflict s
    · rfl
  · rfl

theorem pending_settleEmpty (s : State) : s.settleEmpty.pending = s.pending :=
  (pending_countStreak _ _).trans (pending_readOwnHeader s)

theorem pending_endHeader (s : State) (bytes : List Byte) : (s.endHeader bytes).pending = s.pending := by
  unfold State.endHeader
  dsimp only
  split
  · split
    · rfl
    · exact pending_enterListening _
  · rfl

theorem pending_undoMark (s : State) (u : Undo) (others : Level) : (s.undoMark u others).pending = s.pending := by
  unfold State.undoMark
  split
  · exact (pending_of_settles (settles_undoStart s _) :)
  · rfl

theorem pending_sizeAtMark (s : State) (stretched : Bool) : (s.sizeAtMark stretched).pending = s.pending := by
  unfold State.sizeAtMark
  split
  · split <;> rfl
  · split
    · split
      · exact pending_readOwnHeader s
      · rfl
    · split
      · rfl
      · split
        · rfl
        · exact pending_enterListening s.latchLine

theorem pending_markCell (s : State) (read : MarkRead) : (s.markCell read).pending = s.pending := by
  unfold State.markCell
  dsimp only
  split
  · split
    · exact pending_undoMark s _ _
    · exact pending_compareCell _ _ _
  · split
    · exact (pending_compareCell _ _ _).trans (pending_sizeAtMark _ _)
    · rfl

theorem pending_stuckInMark (s : State) (others : Level) : (s.stuckInMark others).pending = s.pending :=
  (pending_takeStuck _).trans (pending_holdLow s .wclk)

theorem pending_endCheck (s : State) (h : HeaderFields) (payload : List Byte) (check : BitVec 16) :
    (s.endCheck h payload check).pending = s.pending := by
  rw [endCheck_eq]
  split
  · obtain ⟨_, _, _, _, _, only⟩ := applyDecision_only (s.checked h payload check) h (s.checkGood h payload check)
      (lineBytes h.length payload)
    rw [only]
    rfl
  · rfl

theorem pending_endOwnWindow (s : State) (x : Transmission) (a b : Level) :
    (s.endOwnWindow x a b).pending = s.pending := by
  have settled := pending_of_settles (settles_settleWindow s.readOwnPayload x s.ownCollided a b)
  exact (pending_countStreak _ _).trans (settled.trans (pending_readOwnPayload s))

theorem pending_advanceWindow (s : State) : s.advanceWindow.pending = s.pending := by
  unfold State.advanceWindow
  dsimp only
  split <;> rfl

/-! ## Requests of the queue ports -/

theorem pending_reportMisuse (s : State) (k : MisuseKind) (f : Option FrameNo) :
    (s.reportMisuse k f).pending = s.pending := by
  rw [reportMisuse_only]

theorem pending_takeFrame (s : State) : s.takeFrame.pending = s.pending := by
  unfold State.takeFrame
  split <;> rfl

theorem pending_popInboundFrame (s : State) : s.popInboundFrame.pending = s.pending := by
  unfold State.popInboundFrame
  split
  · rfl
  · dsimp only
    split <;> rfl

theorem pending_popCompletionFrame (s : State) : s.popCompletionFrame.pending = s.pending := by
  unfold State.popCompletionFrame
  split
  · rfl
  · split <;> rfl

theorem pending_withQueue (s : State) (c : FrameClass) (queue : List FrameNo) :
    (s.withQueue c queue).pending = s.pending := by
  cases c <;> rfl

theorem pending_postFilling (s : State) (f : FrameNo) : (s.postFilling f).pending = s.pending := by
  unfold State.postFilling
  split
  · rfl
  · split
    · rfl
    · exact pending_withQueue (s.setFrame f (.queued (s.postedQueued f))) _ _

theorem pending_postByte (s : State) (n : Byte) : (s.postByte n).pending = s.pending := by
  unfold State.postByte
  split
  · exact pending_reportMisuse s _ _
  · split
    · exact pending_postFilling s _
    · exact pending_reportMisuse s _ _

theorem pending_releaseHeld (s : State) (f : FrameNo) (r : InRecord) : (s.releaseHeld f r).pending = s.pending := by
  unfold State.releaseHeld
  dsimp only
  split
  · rw [updPeer_only]
    rfl
  · rfl

theorem pending_releaseByte (s : State) (n : Byte) : (s.releaseByte n).pending = s.pending := by
  unfold State.releaseByte
  split
  · exact pending_reportMisuse s _ _
  · split
    · exact pending_releaseHeld s _ _
    · exact pending_reportMisuse s _ _

theorem pending_cancelByte (s : State) (n : Byte) : (s.cancelByte n).pending = s.pending := by
  unfold State.cancelByte
  split
  · exact pending_reportMisuse s _ _
  · split
    · exact pending_of_settles (settles_completeCancelled _ _ _ _)
    · rfl
    · exact pending_reportMisuse s _ _

/-! ## Commands at COMMAND -/

theorem pending_enterDoze (s : State) : s.enterDoze.pending = s.pending := by
  unfold State.enterDoze
  split <;> rfl

theorem pending_takeRejoin (s : State) : s.takeRejoin.pending = s.pending := by
  unfold State.takeRejoin
  split
  case h_2 => exact pending_enterListening s
  all_goals rfl

theorem pending_commandByte (s : State) (code : Byte) : (s.commandByte code).pending = s.pending := by
  unfold State.commandByte
  split
  · exact pending_enterDoze s
  · split
    · rfl
    · split
      · exact pending_takeRejoin s
      · split
        · rfl
        · exact pending_reportMisuse s _ _

/-! ## Transactions -/

theorem pending_updTxn (s : State) (g : ActiveTxn → ActiveTxn) : (s.updTxn g).pending = s.pending := by
  unfold State.updTxn
  split <;> rfl

theorem pending_refuseByte (s : State) (x : ActiveTxn) (k : MisuseKind) (f : FrameNo) :
    (s.refuseByte x k f).pending = s.pending := by
  unfold State.refuseByte
  split
  · rfl
  · exact (pending_updTxn _ _).trans (pending_reportMisuse s _ _)

theorem pending_readFrameByte (s : State) (x : ActiveTxn) (a : Nat) :
    (s.readFrameByte x a).2.pending = s.pending := by
  unfold State.readFrameByte
  split
  case h_3 => exact pending_refuseByte s _ _ _
  all_goals rfl

theorem pending_readStatus (s : State) (x : ActiveTxn) (i : Nat) : (s.readStatus x i).2.pending = s.pending := by
  unfold State.readStatus
  split
  · rfl
  · exact pending_updTxn s _

theorem pending_readPeerView (s : State) (x : ActiveTxn) (p : Pos) (i : Nat) :
    (s.readPeerView x p i).2.pending = s.pending := by
  unfold State.readPeerView
  split
  · rfl
  · exact pending_updTxn s _

/-- A port read acts at one of three ports, captures a status or an entry, or changes nothing. -/
theorem pending_readPort (s : State) (first : Bool) (x : ActiveTxn) (a : Nat) :
    (s.readPort first x a).2.pending = s.pending := by
  simp only [State.readPort, apply_ite Prod.snd, apply_ite State.pending, pending_takeFrame, pending_popInboundFrame,
    pending_popCompletionFrame, pending_readStatus, pending_readPeerView, ite_self]

theorem pending_takeRead (s : State) (first : Bool) (x : ActiveTxn) : (s.takeRead first x).pending = s.pending := by
  refine (pending_updTxn _ _).trans ?_
  rw [apply_ite Prod.snd, apply_ite State.pending, pending_readFrameByte, pending_readPort, ite_self]

theorem pending_writeFrameByte (s : State) (x : ActiveTxn) (a : Nat) (v : Byte) :
    (s.writeFrameByte x a v).pending = s.pending := by
  unfold State.writeFrameByte
  split
  · rfl
  · exact pending_refuseByte s _ _ _

theorem pending_updWake (s : State) (n : Fin 3) (g : WakeEntry → WakeEntry) : (s.updWake n g).pending = s.pending := rfl

theorem pending_clearEvents (s : State) (v : Byte) : (s.clearEvents v).pending = s.pending := rfl

/-- A port write acts at one of five ports, stores a register, or changes nothing. -/
theorem pending_writePort (s : State) (first : Bool) (a : Nat) (v : Byte) :
    (s.writePort first a v).pending = s.pending := by
  simp only [State.writePort, apply_ite State.pending, pending_postByte, pending_releaseByte, pending_cancelByte,
    pending_commandByte, pending_clearEvents, withLpt_pending, pending_updWake, ite_self]

theorem pending_takeWrite (s : State) (first : Bool) (x : ActiveTxn) (v : Byte) :
    (s.takeWrite first x v).pending = s.pending := by
  refine (pending_updTxn _ _).trans ?_
  rw [apply_ite State.pending, pending_writeFrameByte, pending_writePort, ite_self]

theorem pending_portRead (s : State) (start : Option Addr) : (s.portRead start).pending = s.pending := by
  unfold State.portRead
  split
  · rfl
  · split
    · exact pending_takeRead (s.beginTxn true _) _ _
    · split
      · split
        · exact pending_takeRead s _ _
        · rfl
      all_goals rfl

theorem pending_portWrite (s : State) (start : Option Addr) (v : Byte) :
    (s.portWrite start v).pending = s.pending := by
  unfold State.portWrite
  split
  · rfl
  · split
    · exact pending_takeWrite (s.beginTxn false _) _ _ _
    · split
      · split
        · rfl
        · exact pending_takeWrite s _ _ _
      all_goals rfl

end Sys2Proof.Laws
end

section
/-!
SUPPORT. Every command answers a next state and keeps the queue; on an empty queue a cell-time passes (log 3). While RESET
is asserted no command acts (08 R137, 09 R151); the two edges of the pin.
-/

namespace Sys2Proof.Laws

open Sys2Proof.Machine

/-! ## Every step answers -/

theorem next_keepsQueue {s after : State} (kept : after.pending = s.pending) :
    ∃ t, (.next after : Host.Outcome State Fault Refusal) = .next t ∧ t.pending = s.pending := ⟨after, rfl, kept⟩

/-- A line command answers its effect or no change. -/
theorem whenDue_keepsQueue {s after : State} {due : Bool} (kept : after.pending = s.pending) :
    ∃ t, s.whenDue due after = .next t ∧ t.pending = s.pending := by
  rcases whenDue_next s after due with acts | stands
  · exact ⟨after, acts, kept⟩
  · exact ⟨s, stands, rfl⟩

theorem exec_next (c : Instr) (s : State) : ∃ t, exec c s = .next t ∧ t.pending = s.pending := by
  cases c with
  | take | popInbound | popCompletion | frameMemoryRead => exact next_keepsQueue (pending_portRead s _)
  | post | release | cancel | doze | resume | rejoin | softReset | badCommand | eventClear | registerWrite
  | frameMemoryWrite => exact next_keepsQueue (pending_portWrite s _ _)
  | transactionEnd | resetRelease => exact next_keepsQueue rfl
  | resetAssert =>
    refine next_keepsQueue ?_
    split <;> rfl
  | boundary | openRound | openAbandoned | strayClockFall | leadFieldEnd | collision | carryDrive =>
    exact whenDue_keepsQueue rfl
  | faultRecovery => exact whenDue_keepsQueue (pending_enterListening _)
  | stuckLine wire => exact whenDue_keepsQueue ((pending_takeStuck _).trans (pending_holdLow s wire))
  | roundStopped =>
    refine whenDue_keepsQueue ?_
    split
    · exact pending_enterListening _
    · rfl
  | openComplete | roundStart => exact whenDue_keepsQueue (pending_beginRound _ 1)
  | openSeen =>
    refine whenDue_keepsQueue ?_
    split <;> rfl
  | sweepRunOut => exact whenDue_keepsQueue (pending_sweepUp s)
  | ownPresenceCellLow => exact whenDue_keepsQueue (pending_conflictAtCell s)
  | presenceFieldEnd others => exact whenDue_keepsQueue (pending_endPresence s others)
  | joinFieldEnd others => exact whenDue_keepsQueue (pending_endJoin s others)
  | ownClaimCell others => exact whenDue_keepsQueue (pending_ownClaim s others)
  | claimFieldEnd others => exact whenDue_keepsQueue (pending_endClaim s others)
  | windowStart => exact whenDue_keepsQueue (pending_beginOwnWindow s)
  | emptySettlement => exact whenDue_keepsQueue (pending_settleEmpty s)
  | headerEnd bytes => exact whenDue_keepsQueue (pending_endHeader s bytes)
  | markCell read =>
    refine whenDue_keepsQueue ?_
    split
    · exact pending_stuckInMark s _
    · exact pending_markCell s read
  | frameCheckEnd payload check =>
    refine whenDue_keepsQueue ?_
    split
    · exact pending_endCheck s _ _ _
    · rfl
    · rfl
  | answerDrive =>
    refine whenDue_keepsQueue ?_
    split <;> rfl
  | outcome a b =>
    refine whenDue_keepsQueue ?_
    split
    · exact pending_endOwnWindow s _ a b
    · rfl
  | chainedRoundStart => exact whenDue_keepsQueue (pending_startChained s)
  | roundEnd => exact whenDue_keepsQueue (pending_completeObservation s)
  | windowEnd => exact whenDue_keepsQueue (pending_advanceWindow s)

theorem step_of_empty {s : State} (empty : s.pending = []) : step s = .next s.tick := by
  simp only [step, empty]

/-- No cell-time passes while RESET is asserted, or at a station that makes the cell clock. -/
theorem tick_of_held {s : State} (held : s.resetAsserted = true ∨ s.lif.phase ≠ .none) : s.tick = s := by
  refine if_pos ?_
  rwa [Bool.or_eq_true, bne_iff_ne]

/-- Settles O2: command by command, its operation keeps the queue; on an empty queue the step is the cell-time. -/
theorem everyStepAnswersNext : Obligations.EveryStepAnswersNext := by
  refine ⟨exec_next, fun s empty => ⟨step_of_empty empty, fun held => ?_⟩⟩
  rw [step_of_empty empty, tick_of_held held]

/-! ## While RESET is asserted -/

theorem portRead_inReset {s : State} (hr : s.resetAsserted = true) (start : Option Addr) : s.portRead start = s :=
  if_pos hr

theorem portWrite_inReset {s : State} (hr : s.resetAsserted = true) (start : Option Addr) (v : Byte) :
    s.portWrite start v = s := if_pos hr

theorem whenDue_inReset {s after : State} {due : Bool} (hr : s.resetAsserted = true) :
    s.whenDue due after = .next s := by
  simp [State.whenDue, hr]

/-- Settles O3: the local port ignores its bytes, no line command is due, and a second assertion changes nothing. -/
theorem resetHoldsOffCommands : Obligations.ResetHoldsOffCommands := by
  refine ⟨fun c s hr notEnd notRelease => ?_, fun s => rfl⟩
  cases c with
  | take | popInbound | popCompletion | frameMemoryRead => exact congrArg _ (portRead_inReset hr _)
  | post | release | cancel | doze | resume | rejoin | softReset | badCommand | eventClear | registerWrite
  | frameMemoryWrite => exact congrArg _ (portWrite_inReset hr _ _)
  | transactionEnd => exact absurd rfl notEnd
  | resetRelease straps => exact absurd rfl (notRelease straps)
  | resetAssert => exact congrArg _ (if_pos hr)
  | _ => exact whenDue_inReset hr

/-! ## The two edges of RESET -/

/-- CS asserted at a pin reset is waited for until its release (09 R151). -/
theorem afterPinReset_eq (x : Txn) : x.afterPinReset = if x = .idle then .idle else .blocked := by
  cases x <;> rfl

theorem irq_inReset {s : State} (hr : s.resetAsserted = true) : s.irq = false := by simp [State.irq, hr]

theorem wake_inReset {s : State} (hr : s.resetAsserted = true) : s.wake = false := by simp [State.wake, hr]

/-- Settles O6: the assertion changes the Line Interface and the transaction, the release leaves the reset values. -/
theorem pinResetEdges : Obligations.PinResetEdges := by
  refine ⟨fun s hr => ⟨s.assertReset, ?_, rfl, rfl, rfl, rfl, rfl, rfl, rfl, rfl, rfl, rfl, irq_inReset rfl,
    wake_inReset rfl, ?_⟩, fun s straps => ?_⟩
  · exact congrArg _ (if_neg (by simp [hr]))
  · rw [← afterPinReset_eq]
    rfl
  · rw [← afterPinReset_eq]
    rfl

end Sys2Proof.Laws
end

section
/-!
SUPPORT. The stuck line (08 R147, 06 R107) and the edges on an idle line or in a high phase (08 R140, R142, R144, R145).
-/

namespace Sys2Proof.Laws

open Sys2Proof.Machine

/-! ## A stuck line -/

/-- A wire held low until its count is above its threshold makes the line stuck (08 R147). -/
theorem lineStuck_holdLow (s : State) (wire : Wire) : lineStuck (s.holdLow wire).lif = true := by
  have count : ∀ m n : Nat, m < min (m + 1) (n + (m + 1 - n)) := fun m n => by omega
  cases wire with
  | wclk => exact Bool.or_eq_true_iff.mpr (.inl (decide_eq_true (count _ _)))
  | wdat => exact Bool.or_eq_true_iff.mpr (.inr (decide_eq_true (count _ _)))

theorem holdLow_rdc (s : State) (wire : Wire) :
    (s.holdLow wire).rdc = { s.rdc with sweep := (s.holdLow wire).rdc.sweep } := by
  cases wire <;> rfl

theorem fen_holdLow (s : State) (wire : Wire) : (s.holdLow wire).fen = s.fen := by cases wire <;> rfl

theorem straps_holdLow (s : State) (wire : Wire) : (s.holdLow wire).lif.straps = s.lif.straps := by cases wire <;> rfl

theorem sameTraffic_holdLow (s : State) (wire : Wire) : s.SameTraffic (s.holdLow wire) := by
  cases wire <;> exact ⟨rfl, rfl, rfl, rfl, rfl, rfl, rfl, rfl⟩

theorem sameElsewhere_of_sameTraffic {s t : State} (straps : t.lif.straps = s.lif.straps) (h : s.SameTraffic t) :
    s.SameElsewhere t := by
  obtain ⟨hr, -, fpl, -, ibu, lpt, wku, pending⟩ := h
  simp only [State.SameElsewhere, hr, straps, fpl, ibu, lpt, wku, pending, and_self]

/-- A station that drives nothing and whose sweep timer is stopped changes levels and counts alone. -/
theorem holdLow_of_silent {s : State} (wclk : s.lif.wclkDrive = false) (wdat : s.lif.wdatDrive = false)
    (stopped : s.rdc.sweep = .stopped) (wire : Wire) :
    (s.holdLow wire).lif.wclkDrive = s.lif.wclkDrive ∧ (s.holdLow wire).lif.wdatDrive = s.lif.wdatDrive ∧
    (s.holdLow wire).lif.phase = s.lif.phase ∧ (s.holdLow wire).lif.openSeen = s.lif.openSeen ∧
    (s.holdLow wire).rdc = s.rdc := by
  have rdc : (s.holdLow wire).rdc = s.rdc := by
    have sweep : (s.holdLow wire).rdc.sweep = s.rdc.sweep := by
      cases wire <;> exact (congrArg (SweepTimer.elapse · _) stopped).trans stopped.symm
    rw [holdLow_rdc, sweep]
  cases wire with
  | wclk => exact ⟨wclk.symm, rfl, rfl, rfl, rdc⟩
  | wdat => exact ⟨wclk.symm, wdat.symm, rfl, rfl, rdc⟩

theorem takeStuck_of_active {s : State} (notConflict : s.rdc.participation ≠ .conflict)
    (notFault : s.rdc.participation ≠ .fault) : s.takeStuck = s.enterFault := by
  unfold State.takeStuck
  split
  case h_5 conflict => exact absurd conflict notConflict
  case h_6 fault => exact absurd fault notFault
  all_goals rfl

theorem takeStuck_of_inert {s : State} (h : s.rdc.participation = .conflict ∨ s.rdc.participation = .fault) :
    s.takeStuck = s := by
  unfold State.takeStuck
  rcases h with h | h <;> rw [h]

theorem participation_holdLow (s : State) (wire : Wire) :
    (s.holdLow wire).rdc.participation = s.rdc.participation := by rw [holdLow_rdc]

theorem enterFault_spec (s : State) : s.enterFault.OutOfRound .fault ∧ s.enterFault.lif.idle = 0 ∧
    s.SameElsewhere s.enterFault ∧
    s.enterFault.lpt = { s.lpt with latched := { s.lpt.latched with line := true } } := by
  refine ⟨leaveRound_outOfRound s .fault, rfl, sameElsewhere_trans (sameElsewhere_leaveRound s .fault) ?_, ?_⟩
  · simp [State.SameElsewhere, State.enterFault, State.restartIdle, State.latchLine]
  · exact congrArg (fun x : Lpt => { x with latched := { x.latched with line := true } }) (lpt_leaveRound s .fault)

/-- With both wires HIGH no count of a low wire runs (08 R147). -/
theorem not_stuck_elapse {l : Lif} (wclk : l.wclk = .high) (wdat : l.wdat = .high) (n : Nat) :
    lineStuck (l.elapse n) = false := by
  refine lineStuck_quiet _ (if_neg ?_) (if_neg ?_)
  · rw [wclk]
    exact nofun
  · rw [wdat]
    exact fun low => nomatch low.1

theorem not_stuck_quietUntil (s : State) (n : Nat) (hn : n ≤ Config.settleGap) :
    lineStuck (s.quietUntil n).lif = false := by
  obtain ⟨wclk, wdat, -⟩ := quietUntil_idle s n hn
  exact not_stuck_elapse (l := s.lif.quiet) wclk wdat _

/-- In CONFLICT both lines HIGH for 24 cell-times move levels, counts and the sweep timer alone (log 45). -/
theorem roundStopped_conflict {s : State} (hr : s.resetAsserted = false) (conflict : s.rdc.participation = .conflict) :
    exec .roundStopped s = .next (s.quietUntil Config.boundary) := by
  have notObserving : s.isObserving = false := by simp [State.isObserving, conflict]
  have unused : s.quietUnused = true := by simp [State.quietUnused, conflict]
  refine (whenDue_due hr (by rw [unused, Bool.or_true])).trans ?_
  rw [notObserving]
  rfl

/-- Settles O23: the wire held low, then the entry to FAULT where the participation state has one. -/
theorem stuckLineLeadsToFault : Obligations.StuckLineLeadsToFault := by
  intro s wire hr
  have due : exec (.stuckLine wire) s = .next (s.holdLow wire).takeStuck := whenDue_due hr rfl
  have held := sameTraffic_holdLow s wire
  refine ⟨fun notConflict notFault => ?_, fun inert => ?_, fun conflict => ?_⟩
  · obtain ⟨out, idle, elsewhere, port⟩ := enterFault_spec (s.holdLow wire)
    have heldElsewhere := sameElsewhere_of_sameTraffic (straps_holdLow s wire) held
    obtain ⟨-, -, -, -, -, lpt, -, -⟩ := held
    rw [takeStuck_of_active (by rwa [participation_holdLow]) (by rwa [participation_holdLow])] at due
    exact ⟨_, due, out, idle, sameElsewhere_trans heldElsewhere elsewhere, lpt ▸ port⟩
  · rw [takeStuck_of_inert (by rwa [participation_holdLow])] at due
    refine ⟨_, due, holdLow_rdc s wire, lineStuck_holdLow s wire, fen_holdLow s wire, held, fun silent => ?_⟩
    obtain ⟨wclk, wdat, -, -, -, -, -, -, -, -, -, stopped, -⟩ := silent (out_of_participation (.inr inert))
    exact holdLow_of_silent wclk wdat stopped wire
  · obtain ⟨wclk, wdat, idle⟩ := quietUntil_idle s Config.boundary (by decide)
    obtain ⟨-, wclkDrive, wdatDrive, -⟩ := quiet_keeps s.lif
    exact ⟨_, roundStopped_conflict hr conflict, not_stuck_quietUntil s _ (by decide), wclk, wdat, idle, wclkDrive,
      wdatDrive, rfl, rfl, sameTraffic_quietUntil s Config.boundary⟩

/-! ## Edges on an idle line, and in a high phase -/

theorem sameTraffic_withLif (s : State) (l : Lif) : s.SameTraffic (s.withLif l) :=
  ⟨rfl, rfl, rfl, rfl, rfl, rfl, rfl, rfl⟩

/-- An edge that is due moves the Line Interface, and nothing else of the station. -/
theorem whenDue_withLif {s : State} {l l' : Lif} {due : Bool} (hr : s.resetAsserted = false) (hd : due = true)
    (edge : l = l') : ∃ t, s.whenDue due (s.withLif l) = .next t ∧ t.lif = l' ∧ t.rdc = s.rdc ∧ t.fen = s.fen ∧
      s.SameTraffic t :=
  ⟨_, whenDue_due hr hd, edge, rfl, rfl, sameTraffic_withLif s l⟩

theorem betweenRounds_of_idle {s : State} (stage : s.rdc.stage = .idle) :
    s.betweenRounds = (s.isMember || s.isObserving) := by simp [State.betweenRounds, stage]

theorem betweenRounds_of_inside {s : State} (stage : s.rdc.stage ≠ .idle) : s.betweenRounds = false := by
  simp [State.betweenRounds, stage]

/-- OPEN_SEEN changes the Line Interface alone, and of it open seen between rounds only. -/
theorem execOpenSeen_eq {s : State} (unseen : s.lif.openSeen = false) : exec .openSeen s =
    s.whenDue (s.noOpen && (s.rdc.stage == .idle || (s.highPhase && s.lif.wdat == .high)))
      (s.withLif { s.lif with
        wclk := .high, wdat := .low, idle := 0, clockLow := 0, dataLow := 0, openSeen := s.betweenRounds }) := by
  have falls : s.dataFalls = s.withLif { s.lif with
      wclk := .high, wdat := .low, idle := 0, clockLow := 0, dataLow := 0, openSeen := false } := by
    rw [← unseen]
    rfl
  refine congrArg (s.whenDue _) ?_
  cases s.betweenRounds with
  | true => rfl
  | false => exact falls

/-- Where WDAT can rise with open seen clear: this station does not hold it low (08 R142, R143, R147). -/
theorem dataRises_iff (s : State) : s.dataRises = true ↔ s.lif.openCount = none ∧ s.lif.wdat = .low ∧
    (s.rdc.stage = .idle ∨ (s.lif.wclk = .high ∧ s.lif.wdatDrive = false)) := by
  by_cases stage : s.rdc.stage = .idle <;> simp [State.dataRises, State.highPhase, stage, and_assoc]

/-- Settles O26: each edge by when it is due, and what it makes of the Line Interface. -/
theorem edgesOnTheIdleLine : Obligations.EdgesOnTheIdleLine := by
  intro s hr
  refine ⟨fun stage unopened => ?_, fun stage unopened => ⟨fun wclk wdat => ?_, fun low => ?_⟩, fun rises => ?_,
    fun stage unopened => ?_⟩
  · rw [execOpenSeen_eq ((noOpen_iff s).mp unopened).1, betweenRounds_of_idle stage]
    exact whenDue_withLif hr (by rw [unopened, stage]; rfl) rfl
  · obtain ⟨unseen, -⟩ := (noOpen_iff s).mp unopened
    rw [execOpenSeen_eq unseen, betweenRounds_of_inside stage]
    refine whenDue_withLif hr ?_ ?_
    · rw [unopened, (highPhase_iff s).mpr ⟨stage, wclk⟩, wdat, Bool.true_and]
      exact Bool.or_true _
    · rw [← wclk, ← unseen]
  · refine whenDue_not_due ?_
    rcases low with low | low <;> simp [State.highPhase, stage, low]
  · refine whenDue_withLif hr ?_ rfl
    rwa [Bool.or_eq_true, dataRises_iff]
  · exact whenDue_withLif hr (by rw [stage, unopened]; rfl) rfl

end Sys2Proof.Laws
end

section
/-!
SUPPORT. Read data bytes outside frame memory, by the address map (09 R152, R153, R160, 05 R99, 11 Table 11-4).
-/

namespace Sys2Proof.Laws

open Sys2Proof.Machine

/-! ## The address map, area by area -/

section
variable (s : State) (x : ActiveTxn)

theorem readPort_take : s.readPort false x 0xC01 = (s.lpt.takeLatch, s) := rfl

theorem readPort_inbound : s.readPort false x 0xC03 = (s.lpt.inboundLatch, s) := rfl

/-- The first byte of the record gives the latch to a byte that comes by auto-increment, the others to every byte. -/
theorem readPort_completion {first : Bool} {i : Nat} (hi : i < 5) (later : i = 0 → first = false) :
    s.readPort first x (0xC05 + i) = (s.lpt.completionLatch.byte i, s) := by
  have latched : ¬ (first = true ∧ 0xC05 + i = 0xC05) := fun ⟨isFirst, base⟩ => by
    cases isFirst.symm.trans (later (by omega))
  simp (disch := omega) only [State.readPort, if_neg, if_pos, Nat.add_sub_cancel_left]

variable (first : Bool)

theorem readPort_enable : s.readPort first x 0xC19 = (s.lpt.enable, s) := rfl

theorem readPort_status {i : Nat} (hi : i < 16) : s.readPort first x (0xC20 + i) = s.readStatus x i := by
  simp (disch := omega) only [State.readPort, if_neg, if_pos, Nat.add_sub_cancel_left]

theorem readPort_settings (n : Fin 3) {i : Nat} (hi : i < 2) :
    s.readPort first x (0xC30 + 2 * n.val + i) = ((s.wakeEntry n).settingsByte i, s) := by
  have entry : Fin.ofNat 3 ((0xC30 + 2 * n.val + i - 0xC30) / 2) = n := Fin.ext (by simp only [Fin.ofNat]; omega)
  have byte : (0xC30 + 2 * n.val + i) % 2 = i := by omega
  simp (disch := omega) only [State.readPort, if_neg, if_pos, entry, byte]

theorem readPort_view (p : Pos) {i : Nat} (hi : i < 4) :
    s.readPort first x (0xC40 + 4 * p.val + i) = s.readPeerView x p i := by
  have entry : Fin.ofNat 16 ((0xC40 + 4 * p.val + i - 0xC40) / 4) = p := Fin.ext (by simp only [Fin.ofNat]; omega)
  have byte : (0xC40 + 4 * p.val + i) % 4 = i := by omega
  simp (disch := omega) only [State.readPort, if_neg, if_pos, entry, byte]

theorem readPort_tags (n : Fin 3) {i : Nat} (hi : i < 4) :
    s.readPort first x (0xC80 + 4 * n.val + i) = ((s.wakeEntry n).tagByte i, s) := by
  have entry : Fin.ofNat 3 ((0xC80 + 4 * n.val + i - 0xC80) / 4) = n := Fin.ext (by simp only [Fin.ofNat]; omega)
  have byte : (0xC80 + 4 * n.val + i) % 4 = i := by omega
  simp (disch := omega) only [State.readPort, if_neg, if_pos, entry, byte]

/-- Where nothing can be read: the write ports, the gaps of the control area, and past the wake tag table. -/
theorem readPort_nothing {a : Nat} (unread : a ∈ [0xC00, 0xC02, 0xC04] ∨ (0xC0A ≤ a ∧ a ≤ 0xC18) ∨
    (0xC1A ≤ a ∧ a ≤ 0xC1F) ∨ (0xC36 ≤ a ∧ a ≤ 0xC3F) ∨ 0xC8C ≤ a) : s.readPort first x a = (0, s) := by
  simp only [List.mem_cons, List.not_mem_nil, or_false] at unread
  simp (disch := omega) only [State.readPort, if_neg]

end

/-! ## What a byte of the tag table holds -/

theorem setWidth_highByte (w : BitVec 16) : (w >>> 8).setWidth 8 = w.extractLsb' 8 8 :=
  BitVec.setWidth_ushiftRight_eq_extractLsb

theorem setWidth_lowByte (w : BitVec 16) : w.setWidth 8 = w.extractLsb' 0 8 :=
  BitVec.setWidth_eq_extractLsb' (by decide)

theorem tagByte_eq (e : WakeEntry) : e.tagByte 0 = (e.tagValue >>> 8).setWidth 8 ∧
    e.tagByte 1 = e.tagValue.setWidth 8 ∧ e.tagByte 2 = (e.tagMask >>> 8).setWidth 8 ∧
    e.tagByte 3 = e.tagMask.setWidth 8 :=
  ⟨(setWidth_highByte _).symm, (setWidth_lowByte _).symm, (setWidth_highByte _).symm, (setWidth_lowByte _).symm⟩

/-! ## Bytes from a capture -/

/-- A status byte comes from the transaction's capture, made with its first one (09 R160). -/
theorem readStatus_eq {s : State} {x : ActiveTxn} (h : s.lpt.txn = .active x) (i : Nat) :
    s.readStatus x i = ((x.statusCapture.getD s.statusArea).getD i 0,
      s.withLpt { s.lpt with
        txn := .active { x with statusCapture := some (x.statusCapture.getD s.statusArea) } }) := by
  unfold State.readStatus
  split
  · rename_i c captured
    have same : ({ x with statusCapture := some c } : ActiveTxn) = x := by rw [← captured]
    rw [captured, Option.getD_some, same, ← h]
    rfl
  · rename_i uncaptured
    rw [updTxn_active _ h, uncaptured]
    rfl

/-- A byte of the peer view comes from the transaction's capture of its entry, made with the entry's first one
(05 R99). -/
theorem readPeerView_eq {s : State} {x : ActiveTxn} (h : s.lpt.txn = .active x) (p : Pos) (i : Nat) :
    s.readPeerView x p i = (((x.peerCaptures.lookup p).getD (s.peer p).view).byte i,
      s.withLpt { s.lpt with txn := .active { x with
        peerCaptures := match x.peerCaptures.lookup p with
          | some _ => x.peerCaptures
          | none => (p, (s.peer p).view) :: x.peerCaptures } }) := by
  unfold State.readPeerView
  cases x.peerCaptures.lookup p with
  | some v =>
    rw [Option.getD_some, ← h]
    rfl
  | none =>
    dsimp only
    rw [Option.getD_none, updTxn_active _ h]

/-! ## A read outside frame memory -/

/-- The station as a data byte of transaction x finds it. -/
abbrev opened (s : State) (start : Option Addr) (x : ActiveTxn) : State := s.withLpt (s.lptOpen start x)

/-- A read byte outside frame memory stands on SDO, and of the station the transaction alone changes, as `y` has it. -/
theorem frameMemoryRead_port {s : State} {start : Option Addr} {x y : ActiveTxn} {n : Nat} {b : Byte}
    (hr : s.resetAsserted = false) (hx : s.txnFor true start = some x) (hn : x.addr.toNat = n) (hport : 0xC00 ≤ n)
    (read : (opened s start x).readPort start.isSome x n =
      (b, (opened s start x).withLpt { s.lptOpen start x with txn := .active y })) :
    exec (.frameMemoryRead start) s = .next { s with lpt := { s.lpt with
      txn := .active { y with addr := y.addr + 1 }, sdo := some b } } := by
  subst hn
  refine congrArg Host.Outcome.next ((portRead_eq hr hx).trans ?_)
  exact (takeRead_eq ((if_neg (Nat.not_lt.mpr hport)).trans read) rfl).trans rfl

/-- A command with the operands of its row begins no transaction at a port that acts on a read. -/
theorem later_of_acting {s : State} {start : Option Addr} {x : ActiveTxn} (hx : s.txnFor true start = some x)
    (wf : (Instr.frameMemoryRead start).wellFormed = true) (acting : isActingReadPort x.addr = true) :
    start.isSome = false := by
  cases start with
  | none => rfl
  | some a =>
    cases hx
    have acts : isActingReadPort a = true := acting
    simp [Instr.wellFormed, acts] at wf

/-- Settles O19: the address map, area by area, and the two captures. -/
theorem portReadsByAddress : Obligations.PortReadsByAddress := by
  intro s start x hr hx wf a gives
  have given : ∀ {n b}, a = n → 0xC00 ≤ n →
      (opened s start x).readPort start.isSome x n = (b, opened s start x) → gives b :=
    fun ha hport read => frameMemoryRead_port (y := x) hr hx ha hport read
  have later : ∀ {base : Addr}, a = base.toNat → isActingReadPort base = true → start.isSome = false :=
    fun ha acting => later_of_acting hx wf (BitVec.eq_of_toNat_eq ha ▸ acting)
  have latch : ∀ i < 5, a = 0xC05 + i → gives (s.lpt.completionLatch.byte i) := fun i hi ha =>
    given ha (by omega) (readPort_completion _ x hi fun base => later (base := 0xC05) (by subst base; exact ha) rfl)
  have settings : ∀ (n : Fin 3), ∀ i < 2, a = 0xC30 + 2 * n.val + i → gives ((s.wakeEntry n).settingsByte i) :=
    fun n i hi ha => given ha (by omega) (readPort_settings _ x _ n hi)
  have tags : ∀ (n : Fin 3), ∀ i < 4, a = 0xC80 + 4 * n.val + i → gives ((s.wakeEntry n).tagByte i) :=
    fun n i hi ha => given ha (by omega) (readPort_tags _ x _ n hi)
  refine ⟨fun ha => ?_, fun ha => ?_, latch 0 (by decide), latch 1 (by decide), latch 2 (by decide),
    latch 3 (by decide), latch 4 (by decide), fun ha => ?_, fun n => ?_, fun unread => ?_, fun i hi ha => ?_,
    fun p i hi ha => ?_⟩
  · refine given ha (by decide) ?_
    rw [later (base := 0xC01) ha rfl]
    exact readPort_take _ x
  · refine given ha (by decide) ?_
    rw [later (base := 0xC03) ha rfl]
    exact readPort_inbound _ x
  · exact given ha (by decide) (readPort_enable _ x _)
  · obtain ⟨tag0, tag1, tag2, tag3⟩ := tagByte_eq (s.wakeEntry n)
    refine ⟨settings n 0 (by decide), fun ha => settings n 1 (by decide) (by omega), fun ha => ?_, fun ha => ?_,
      fun ha => ?_, fun ha => ?_⟩
    · exact tag0 ▸ tags n 0 (by decide) ha
    · exact tag1 ▸ tags n 1 (by decide) (by omega)
    · exact tag2 ▸ tags n 2 (by decide) (by omega)
    · exact tag3 ▸ tags n 3 (by decide) (by omega)
  · refine given rfl ?_ (readPort_nothing _ x _ unread)
    simp only [List.mem_cons, List.not_mem_nil, or_false] at unread
    omega
  · exact frameMemoryRead_port hr hx ha (by omega) ((readPort_status _ x _ hi).trans (readStatus_eq rfl i))
  · exact frameMemoryRead_port hr hx ha (by omega) ((readPort_view _ x _ p hi).trans (readPeerView_eq rfl p i))

end Sys2Proof.Laws
end

section
/-!
SUPPORT. Bytes written to the registers that store: EVENT_ENABLE, the wake settings, the wake tag table (09 R152, R162,
10 R167, 11 R171).
-/

namespace Sys2Proof.Laws

open Sys2Proof.Machine

/-! ## Where a byte is stored -/

section
variable (s : State) (first : Bool) (v : Byte)

theorem writePort_enable : s.writePort first 0xC19 v = s.withLpt { s.lpt with enable := v } := rfl

theorem writePort_settings (n : Fin 3) {i : Nat} (hi : i < 2) :
    s.writePort first (0xC30 + 2 * n.val + i) v = s.updWake n (fun e => e.setSettingsByte i v) := by
  have entry : Fin.ofNat 3 ((0xC30 + 2 * n.val + i - 0xC30) / 2) = n := Fin.ext (by simp only [Fin.ofNat]; omega)
  have byte : (0xC30 + 2 * n.val + i) % 2 = i := by omega
  simp (disch := omega) only [State.writePort, if_neg, if_pos, entry, byte]

theorem writePort_tags (n : Fin 3) {i : Nat} (hi : i < 4) :
    s.writePort first (0xC80 + 4 * n.val + i) v = s.updWake n (fun e => e.setTagByte i v) := by
  have entry : Fin.ofNat 3 ((0xC80 + 4 * n.val + i - 0xC80) / 4) = n := Fin.ext (by simp only [Fin.ofNat]; omega)
  have byte : (0xC80 + 4 * n.val + i) % 4 = i := by omega
  simp (disch := omega) only [State.writePort, if_neg, if_pos, entry, byte]

end

/-! ## What is stored -/

/-- A byte of the tag table takes its half of the tag value or the tag mask, the other half as before. -/
theorem setTagByte_eq (e : WakeEntry) (v : Byte) :
    e.setTagByte 0 v = { e with tagValue := v ++ e.tagValue.setWidth 8 } ∧
    e.setTagByte 1 v = { e with tagValue := (e.tagValue >>> 8).setWidth 8 ++ v } ∧
    e.setTagByte 2 v = { e with tagMask := v ++ e.tagMask.setWidth 8 } ∧
    e.setTagByte 3 v = { e with tagMask := (e.tagMask >>> 8).setWidth 8 ++ v } := by
  rw [setWidth_highByte, setWidth_highByte, setWidth_lowByte, setWidth_lowByte]
  exact ⟨rfl, rfl, rfl, rfl⟩

/-! ## A register write -/

/-- A byte written outside frame memory that leaves the transaction as it stands. -/
theorem registerWrite_port {s u : State} {start : Option Addr} {x : ActiveTxn} {n : Nat} {v : Byte}
    (hr : s.resetAsserted = false) (hx : s.txnFor false start = some x) (hn : x.addr.toNat = n) (hport : 0xC00 ≤ n)
    (written : (opened s start x).writePort start.isSome n v = u) (kept : u.lpt.txn = .active x) :
    exec (.registerWrite start v) s =
      .next (u.withLpt { u.lpt with txn := .active { x with addr := x.addr + 1 } }) := by
  subst hn
  refine congrArg Host.Outcome.next ((portWrite_eq v hr hx).trans ?_)
  exact takeWrite_eq ((if_neg (Nat.not_lt.mpr hport)).trans written) kept

/-- Settles O17: each register that stores, by its address. -/
theorem registerWriteStores : Obligations.RegisterWriteStores := by
  intro s start v x hr hx port
  refine ⟨fun ha => ?_, fun n => ?_⟩
  · exact registerWrite_port hr hx (n := 0xC19) (by rw [ha]; rfl) (by decide) (writePort_enable _ _ v) rfl
  · intro e stores
    have settings : ∀ i < 2, x.addr.toNat = 0xC30 + 2 * n.val + i → stores (e.setSettingsByte i v) := fun i hi ha =>
      registerWrite_port hr hx ha (by omega) (writePort_settings _ _ v n hi) rfl
    have tags : ∀ i < 4, x.addr.toNat = 0xC80 + 4 * n.val + i → stores (e.setTagByte i v) := fun i hi ha =>
      registerWrite_port hr hx ha (by omega) (writePort_tags _ _ v n hi) rfl
    obtain ⟨tag0, tag1, tag2, tag3⟩ := setTagByte_eq e v
    refine ⟨settings 0 (by decide), fun ha => settings 1 (by decide) (by omega), fun ha => ?_, fun ha => ?_,
      fun ha => ?_, fun ha => ?_⟩
    · exact tag0 ▸ tags 0 (by decide) ha
    · exact tag1 ▸ tags 1 (by decide) (by omega)
    · exact tag2 ▸ tags 2 (by decide) (by omega)
    · exact tag3 ▸ tags 3 (by decide) (by omega)

end Sys2Proof.Laws
end

section
/-!
SUPPORT. Requests that are refused, EVENT_CLEAR with the event unit, and the commands SOFT_RESET and REJOIN
(09 R156 to R159, R161 to R164).
-/

namespace Sys2Proof.Laws

open Sys2Proof.Machine

/-! ## Refused requests (09 R156) -/

theorem postByte_refused {s : State} {n : Byte} (h : ∀ f, frameArg n = some f → s.frame f ≠ .filling) :
    s.postByte n = s.withLpt (s.lpt.misused .postNotFilling (frameArg n)) := by
  unfold State.postByte
  cases named : frameArg n with
  | none => exact reportMisuse_eq s _ _
  | some f =>
    dsimp only
    split
    · exact absurd ‹_› (h f named)
    · exact reportMisuse_eq s _ _

theorem releaseByte_refused {s : State} {n : Byte} (h : ∀ f r, frameArg n = some f → s.frame f ≠ .held r) :
    s.releaseByte n = s.withLpt (s.lpt.misused .releaseNotHeld (frameArg n)) := by
  unfold State.releaseByte
  cases named : frameArg n with
  | none => exact reportMisuse_eq s _ _
  | some f =>
    dsimp only
    split
    · exact absurd ‹_› (h f _ named)
    · exact reportMisuse_eq s _ _

theorem cancelByte_refused {s : State} {n : Byte}
    (h : ∀ f q c, frameArg n = some f → s.frame f ≠ .queued q ∧ s.frame f ≠ .sending q c) :
    s.cancelByte n = s.withLpt (s.lpt.misused .cancelNotOutbound (frameArg n)) := by
  unfold State.cancelByte
  cases named : frameArg n with
  | none => exact reportMisuse_eq s _ _
  | some f =>
    dsimp only
    split
    · exact absurd ‹_› (h f _ false named).1
    · exact absurd ‹_› (h f _ _ named).2
    · exact reportMisuse_eq s _ _

/-! ## The command port (09 R157) -/

theorem commandByte_unknown {s : State} {n : Byte} (doze : n ≠ 0x11) (resume : n ≠ 0x12) (rejoin : n ≠ 0x21)
    (softReset : n ≠ 0x5A) : s.commandByte n = s.withLpt (s.lpt.misused .badCommand none) := by
  rw [State.commandByte, if_neg doze, if_neg resume, if_neg rejoin, if_neg softReset]
  exact reportMisuse_eq s _ _

theorem portWrite_command {s u : State} {code : Byte} (hr : s.resetAsserted = false)
    (hu : (begun s false 0xC13).commandByte code = u) (hx : u.lpt.txn = .active (ActiveTxn.begun false 0xC13)) :
    s.portWrite (some 0xC13) code = u.withLpt { u.lpt with txn := .active (ActiveTxn.begun false (0xC13 + 1)) } := by
  refine portWrite_begun (n := 0xC13) hr rfl (by decide) ?_ hx
  simp [State.writePort, ← hu]

/-- Settles O13: the three refusals, and the code that names no command. -/
theorem refusedRequestsAreMisuses : Obligations.RefusedRequestsAreMisuses := by
  intro s n hr named
  refine ⟨fun h => congrArg Host.Outcome.next ?_, fun h => congrArg Host.Outcome.next ?_,
    fun h => congrArg Host.Outcome.next ?_, fun doze resume rejoin softReset => congrArg Host.Outcome.next ?_⟩
  · exact portWrite_post hr (postByte_refused (s := begun s false 0xC10) h) rfl
  · exact portWrite_release hr (releaseByte_refused (s := begun s false 0xC11) h) rfl
  · exact portWrite_cancel hr (cancelByte_refused (s := begun s false 0xC12) h) rfl
  · exact portWrite_command hr (commandByte_unknown doze resume rejoin softReset) rfl

/-! ## The event unit (09 R161 to R163) -/

/-- Each bit of a byte written by its bits. -/
theorem getLsbD_byteOfBits : ∀ b7 b6 b5 b4 b3 b2 b1 b0 : Bool, let b := byteOfBits b7 b6 b5 b4 b3 b2 b1 b0
    b.getLsbD 7 = b7 ∧ b.getLsbD 6 = b6 ∧ b.getLsbD 5 = b5 ∧ b.getLsbD 4 = b4 ∧ b.getLsbD 3 = b3 ∧
    b.getLsbD 2 = b2 ∧ b.getLsbD 1 = b1 ∧ b.getLsbD 0 = b0 := by decide

theorem eventRaw_bits (s : State) :
    s.eventRaw.getLsbD 7 = !s.ibu.inbound.isEmpty ∧ s.eventRaw.getLsbD 6 = !s.osc.completion.isEmpty ∧
    s.eventRaw.getLsbD 5 = s.takeReady ∧ s.eventRaw.getLsbD 4 = s.lpt.latched.peer ∧
    s.eventRaw.getLsbD 3 = s.lpt.latched.joined ∧ s.eventRaw.getLsbD 2 = s.lpt.latched.line ∧
    s.eventRaw.getLsbD 1 = s.lpt.latched.excess ∧ s.eventRaw.getLsbD 0 = s.lpt.latched.misuse :=
  getLsbD_byteOfBits _ _ _ _ _ _ _ _

theorem irq_iff (s : State) : s.irq = true ↔ s.eventStatus ≠ 0 ∧ s.wku.doze = false ∧ s.resetAsserted = false := by
  simp only [State.irq, Bool.and_eq_true, Bool.not_eq_true', bne_iff_ne]
  constructor
  · rintro ⟨⟨released, awake⟩, status⟩
    exact ⟨status, awake, released⟩
  · rintro ⟨status, awake, released⟩
    exact ⟨⟨released, awake⟩, status⟩

/-- A mask over the five low bits takes away the flags among them that `v` names. -/
theorem byteOfBits_andNot (b7 b6 b5 b4 b3 b2 b1 b0 : Bool) (v : Byte) :
    byteOfBits b7 b6 b5 b4 b3 b2 b1 b0 &&& ~~~(v &&& 0x1F) =
      byteOfBits b7 b6 b5 (b4 && !v.getLsbD 4) (b3 && !v.getLsbD 3) (b2 && !v.getLsbD 2) (b1 && !v.getLsbD 1)
        (b0 && !v.getLsbD 0) := by
  obtain ⟨l7, l6, l5, l4, l3, l2, l1, l0⟩ := getLsbD_byteOfBits b7 b6 b5 b4 b3 b2 b1 b0
  obtain ⟨r7, r6, r5, r4, r3, r2, r1, r0⟩ := getLsbD_byteOfBits b7 b6 b5 (b4 && !v.getLsbD 4) (b3 && !v.getLsbD 3)
    (b2 && !v.getLsbD 2) (b1 && !v.getLsbD 1) (b0 && !v.getLsbD 0)
  have mask : ∀ i < 8, (0x1F : Byte).getLsbD i = decide (i < 5) := by decide
  refine BitVec.eq_of_getLsbD_eq fun i hi => ?_
  rw [BitVec.getLsbD_and, BitVec.getLsbD_not, BitVec.getLsbD_and, mask i hi, decide_eq_true hi, Bool.true_and]
  interval_cases i <;> simp only [l7, l6, l5, l4, l3, l2, l1, l0, r7, r6, r5, r4, r3, r2, r1, r0] <;> simp

/-- A clear takes away the latched flags that the byte names, and no level flag (09 R161, R162). -/
theorem eventRaw_clearEvents (s : State) (v : Byte) :
    (s.clearEvents v).eventRaw = s.eventRaw &&& ~~~(v &&& 0x1F) :=
  (byteOfBits_andNot _ _ _ _ _ _ _ _ v).symm

theorem portWrite_eventClear {s : State} {v : Byte} (hr : s.resetAsserted = false) :
    s.portWrite (some 0xC18) v =
      (s.clearEvents v).withLpt ((s.clearEvents v).lptBegun false 0xC18 0) := by
  refine portWrite_begun (n := 0xC18) hr rfl (by decide) (u := (begun s false 0xC18).clearEvents v) ?_ rfl
  simp [State.writePort]

/-- Settles O16: the raw flags bit by bit, IRQ, and the clear. -/
theorem eventsIrqAndEventClear : Obligations.EventsIrqAndEventClear := by
  intro s
  obtain ⟨inbound, completion, ready, peer, joined, line, excess, misuse⟩ := eventRaw_bits s
  refine ⟨?_, ?_, ?_, peer, joined, line, excess, misuse, rfl, irq_iff s, fun v hr => ?_⟩
  · rw [inbound]
    simp
  · rw [completion]
    simp
  · rw [ready, takeReady_iff]
  · exact ⟨_, congrArg Host.Outcome.next (portWrite_eventClear hr), eventRaw_clearEvents s v, rfl⟩

/-! ## SOFT_RESET (09 R159) -/

/-- A command that leaves the transaction taking nothing is its last byte. -/
theorem portWrite_command_blocked {s u : State} {code : Byte} (hr : s.resetAsserted = false)
    (hu : (begun s false 0xC13).commandByte code = u) (hx : u.lpt.txn = .blocked) :
    s.portWrite (some 0xC13) code = u := by
  have written : (begun s false 0xC13).takeWrite true (ActiveTxn.begun false 0xC13) code =
      u.updTxn (fun x => { x with addr := x.addr + 1 }) := by
    rw [← hu]
    rfl
  rw [portWrite_eq code hr (txnFor_some s false 0xC13)]
  refine written.trans ?_
  simp only [State.updTxn, hx]

/-- Settles O5: the reset values of every block, and the wires as they are released. -/
theorem softResetResetsEveryBlock : Obligations.SoftResetResetsEveryBlock := by
  intro s hr
  have reset : (begun s false 0xC13).commandByte 0x5A = s.softReset := rfl
  exact ⟨s.softReset, congrArg Host.Outcome.next (portWrite_command_blocked hr reset rfl), rfl, rfl, rfl⟩

/-! ## REJOIN (09 R158) -/

theorem takeRejoin_member {s : State} (member : s.rdc.participation = .member) :
    s.takeRejoin = s.withRdc { s.rdc with rejoin := true } := by
  simp only [State.takeRejoin, member]

theorem takeRejoin_conflict {s : State} (conflict : s.rdc.participation = .conflict) :
    s.takeRejoin = s.enterListening := by
  simp only [State.takeRejoin, conflict]

theorem takeRejoin_other {s : State} (notMember : s.rdc.participation ≠ .member)
    (notConflict : s.rdc.participation ≠ .conflict) : s.takeRejoin = s := by
  unfold State.takeRejoin
  split
  case h_1 member => exact absurd member notMember
  case h_2 conflict => exact absurd conflict notConflict
  all_goals rfl

/-- A station with no transmission leaves the round by its Line Interface, its Frame Engine and its Round Controller
alone. -/
theorem leaveRound_only {s : State} (empty : s.osc.slot = none) (entered : Participation) :
    s.leaveRound entered = { s with
      lif := (s.leaveRound entered).lif, fen := (s.leaveRound entered).fen, rdc := (s.leaveRound entered).rdc } := by
  unfold State.leaveRound
  rw [withdraw_none empty]
  rfl

/-- The stuck condition goes by the counts of the low wires alone (08 R147). -/
theorem lineStuck_iff (l : Lif) :
    lineStuck l = true ↔ Config.clockStuckAbove < l.clockLow ∨ Config.dataStuckAbove < l.dataLow := by
  rw [lineStuck, Bool.or_eq_true, decide_eq_true_iff, decide_eq_true_iff]

/-- A release restarts the count of a low wire or leaves it. -/
theorem released_counts_le (l : Lif) : l.released.clockLow ≤ l.clockLow ∧ l.released.dataLow ≤ l.dataLow := by
  have restarted : ∀ (p : Prop) [Decidable p] (n : Nat), (if p then 0 else n) ≤ n := fun p _ n => by
    split <;> omega
  exact ⟨restarted _ _, restarted _ _⟩

/-- A release makes no line stuck. -/
theorem not_stuck_of_released {l : Lif} (free : lineStuck l = false) : lineStuck l.released = false := by
  obtain ⟨clockLow, dataLow⟩ := released_counts_le l
  rw [Bool.eq_false_iff, ne_eq, lineStuck_iff] at free ⊢
  exact fun stuck => free (stuck.imp (·.trans_le clockLow) (·.trans_le dataLow))

/-- Where the station pulls nothing a count that agrees with the wires goes on over a release, and so the line stays
stuck (08 R147). -/
theorem stuck_of_released {l : Lif} (agrees : l.Agrees) (wclk : l.wclkDrive = false) (wdat : l.wdatDrive = false)
    (stuck : lineStuck l = true) : lineStuck l.released = true := by
  rw [lineStuck_iff] at stuck ⊢
  rcases stuck with clock | data
  · have low := agrees.clockLow (Nat.zero_lt_of_lt clock)
    exact .inl (by simpa [Lif.released, wclk, low] using clock)
  · obtain ⟨low, high⟩ := agrees.dataLow (Nat.zero_lt_of_lt data)
    exact .inr (by simpa [Lif.released, wclk, wdat, low, high] using data)

/-! ### From CONFLICT -/

/-- Where no wire is stuck the station enters LISTENING and goes no further (06 R102). -/
theorem enterListening_of_free {s : State} (free : lineStuck s.lif = false) :
    s.enterListening = (s.leaveRound .listening).restartIdle := by
  obtain ⟨lif, -⟩ := leaveRound_line s .listening
  have still : lineStuck (s.leaveRound .listening).lif = false := lif ▸ not_stuck_of_released free
  exact if_neg (Bool.eq_false_iff.mp still)

/-- Where a wire is stuck, which is not this station's doing, it goes on into FAULT (08 R147). -/
theorem enterListening_of_stuck {s : State} (agrees : s.lif.Agrees) (wclk : s.lif.wclkDrive = false)
    (wdat : s.lif.wdatDrive = false) (stuck : lineStuck s.lif = true) :
    s.enterListening = ((s.leaveRound .listening).restartIdle).enterFault := by
  obtain ⟨lif, -⟩ := leaveRound_line s .listening
  have still : lineStuck (s.leaveRound .listening).lif = true := lif ▸ stuck_of_released agrees wclk wdat stuck
  exact if_pos still

/-- A station with no transmission and no stuck wire enters LISTENING by its Line Interface, its Frame Engine and its
Round Controller alone (06 R102, R105). -/
theorem enterListening_free_spec {s : State} (empty : s.osc.slot = none) (free : lineStuck s.lif = false) :
    s.enterListening.OutOfRound .listening ∧ s.enterListening.lif.idle = 0 ∧
    s.enterListening = { s with
      lif := s.enterListening.lif, fen := s.enterListening.fen, rdc := s.enterListening.rdc } := by
  rw [enterListening_of_free free]
  refine ⟨leaveRound_outOfRound s .listening, rfl, ?_⟩
  rw [leaveRound_only empty]
  rfl

/-- With a wire stuck it enters FAULT, LINE latched, with its traffic as it was (06 R107, 08 R147). -/
theorem enterListening_stuck_spec {s : State} (empty : s.osc.slot = none) (agrees : s.lif.Agrees)
    (wclk : s.lif.wclkDrive = false) (wdat : s.lif.wdatDrive = false) (stuck : lineStuck s.lif = true) :
    s.enterListening.OutOfRound .fault ∧ s.enterListening.lif.idle = 0 ∧
    s.enterListening.lpt = { s.lpt with latched := { s.lpt.latched with line := true } } ∧
    s.enterListening.peers = s.peers ∧ s.enterListening.fpl = s.fpl ∧ s.enterListening.osc = s.osc ∧
    s.enterListening.ibu = s.ibu := by
  rw [enterListening_of_stuck agrees wclk wdat stuck]
  obtain ⟨out, idle, -, port⟩ := enterFault_spec (s.leaveRound .listening).restartIdle
  have listening := sameTraffic_leaveRound empty .listening
  have emptied : ((s.leaveRound .listening).restartIdle).osc.slot = none := slot_withdraw s
  obtain ⟨-, peers, pool, queues, inbound, -⟩ :=
    sameTraffic_trans listening (sameTraffic_leaveRound emptied .fault)
  refine ⟨out, idle, port.trans ?_, peers, pool, queues, inbound⟩
  exact congrArg (fun x : Lpt => { x with latched := { x.latched with line := true } }) (lpt_leaveRound s .listening)

theorem exec_rejoin {s u : State} (hr : s.resetAsserted = false) (hu : (begun s false 0xC13).takeRejoin = u)
    (hx : u.lpt.txn = .active (ActiveTxn.begun false 0xC13)) :
    exec .rejoin s = .next (u.withLpt { u.lpt with txn := .active (ActiveTxn.begun false (0xC13 + 1)) }) :=
  congrArg Host.Outcome.next (portWrite_command hr hu hx)

/-- Settles O15: REJOIN at a MEMBER, from CONFLICT with the line free and stuck, and in any other state. -/
theorem rejoinByParticipation : Obligations.RejoinByParticipation := by
  intro s hr
  have outOf : s.rdc.participation = .conflict → s.readsLine = false := fun conflict =>
    out_of_participation (.inr (.inl conflict))
  refine ⟨fun member => ?_, fun conflict silent free => ?_, fun conflict silent wires stuck => ?_,
    fun notMember notConflict => ?_⟩
  · exact exec_rejoin hr (takeRejoin_member (s := begun s false 0xC13) member) rfl
  · obtain ⟨-, -, -, empty, -⟩ := silent (outOf conflict)
    obtain ⟨out, idle, only⟩ := enterListening_free_spec (s := begun s false 0xC13) empty free
    have taken := (takeRejoin_conflict (s := begun s false 0xC13) conflict).trans only
    rw [only] at out
    exact ⟨_, exec_rejoin hr taken rfl, out, idle, rfl⟩
  · obtain ⟨wclk, wdat, -, empty, -⟩ := silent (outOf conflict)
    obtain ⟨agrees, -⟩ := (wiresConsistent_iff s).mp wires
    obtain ⟨out, idle, port, traffic⟩ :=
      enterListening_stuck_spec (s := begun s false 0xC13) empty agrees wclk wdat stuck
    have taken := takeRejoin_conflict (s := begun s false 0xC13) conflict
    exact ⟨_, exec_rejoin hr taken (congrArg Lpt.txn port), out, idle,
      congrArg (·.latched.line) port, traffic⟩
  · exact exec_rejoin hr (takeRejoin_other (s := begun s false 0xC13) notMember notConflict) rfl

end Sys2Proof.Laws
end

section
/-!
SUPPORT. The Wake Unit: the match of an entry and its count, the act that presents a stored frame, and the commands
DOZE and RESUME (10 R165 to R169, 09 R163).
-/

namespace Sys2Proof.Laws

open Sys2Proof.Machine

/-! ## The match of an entry (10 R167, R168) -/

/-- Two words agree under a mask where every bit that the mask selects is equal in both. -/
theorem xor_and_eq_zero_iff {w : Nat} (x y mask : BitVec w) :
    (x ^^^ y) &&& mask = 0 ↔ ∀ i, mask.getLsbD i = true → x.getLsbD i = y.getLsbD i := by
  have bit : ∀ i, ((x ^^^ y) &&& mask).getLsbD i = ((x.getLsbD i ^^ y.getLsbD i) && mask.getLsbD i) := fun i => by
    rw [BitVec.getLsbD_and, BitVec.getLsbD_xor]
  constructor
  · intro zero i selected
    have clear := bit i
    rw [zero, selected, Bool.and_true, BitVec.ofNat_eq_ofNat, BitVec.getLsbD_zero] at clear
    exact bne_eq_false_iff_eq.mp clear.symm
  · intro agree
    refine BitVec.eq_of_getLsbD_eq fun i _ => ?_
    rw [bit i, BitVec.ofNat_eq_ofNat, BitVec.getLsbD_zero]
    cases selected : mask.getLsbD i with
    | false => exact Bool.and_false _
    | true => rw [agree i selected, Bool.xor_self, Bool.false_and]

section
variable (e : WakeEntry) (h : HeaderFields)

/-- An entry matches where it takes part in matching and its four tests hold (10 R167, R168). -/
theorem hits_iff : e.hits h = true ↔
    e.settings0.getLsbD 7 = true ∧ e.required ≠ 0 ∧
    (e.settings1.getLsbD 4 = true ∨ e.settings1.toNat % 16 = h.source.val) ∧
    (e.kindField = 2 ∨ (e.kindField = 0 ∧ h.kind = .message) ∨ (e.kindField = 1 ∧ h.kind = .notice)) ∧
    (e.settings0.getLsbD 6 = true → h.cls = .urgent) ∧
    (∀ i, e.tagMask.getLsbD i = true → h.tag.getLsbD i = e.tagValue.getLsbD i) := by
  have urgent : (!e.urgentOnly || h.cls == .urgent) = true ↔ (e.settings0.getLsbD 6 = true → h.cls = .urgent) := by
    rw [Bool.or_eq_true, Bool.not_eq_true', Bool.eq_false_iff, beq_iff_eq]
    exact imp_iff_not_or.symm
  have tag : ((h.tag ^^^ e.tagValue) &&& e.tagMask == 0) = true ↔
      ∀ i, e.tagMask.getLsbD i = true → h.tag.getLsbD i = e.tagValue.getLsbD i :=
    beq_iff_eq.trans (xor_and_eq_zero_iff _ _ _)
  simp only [WakeEntry.hits, Bool.and_eq_true, urgent, tag, and_assoc]
  simp only [Bool.or_eq_true, Bool.and_eq_true, bne_iff_ne, beq_iff_eq, or_assoc, WakeEntry.enabled,
    WakeEntry.anySource, WakeEntry.source]

end

/-! ## The count of an entry (10 R169) -/

section
variable {e : WakeEntry} {h : HeaderFields}

theorem count_of_hits (hits : e.hits h = true) (below : e.counter < e.required) :
    e.count h = { e with counter := e.counter + 1 } := by
  rw [WakeEntry.count, hits, decide_eq_true below]
  rfl

/-- An entry that does not match, or has reached its count, stays as it is. -/
theorem count_of_rest (rest : ¬ e.hits h = true ∨ e.required ≤ e.counter) : e.count h = e := by
  refine if_neg fun counts => ?_
  obtain ⟨hits, below⟩ := (Bool.and_eq_true _ _).mp counts
  exact rest.elim (· hits) (Nat.not_le.mpr (of_decide_eq_true below))

/-- A match wakes where it brings the counter to the required matches, or finds it there. -/
theorem wakes_iff : e.wakes h = true ↔ e.hits h = true ∧ e.required ≤ e.counter + 1 := by
  rw [WakeEntry.wakes, Bool.and_eq_true, decide_eq_true_iff]
  refine and_congr_right fun hits => ?_
  rcases Nat.lt_or_ge e.counter e.required with below | reached
  · rw [count_of_hits hits below]
  · rw [count_of_rest (.inr reached)]
    exact ⟨fun _ => by omega, fun _ => reached⟩

end

/-! ## A frame presented (10 R168) -/

theorem presentToWake_awake {s : State} (awake : s.wku.doze = false) (h : HeaderFields) : s.presentToWake h = s :=
  if_neg (Bool.eq_false_iff.mp awake)

theorem presentToWake_dozing {s : State} (dozing : s.wku.doze = true) (h : HeaderFields) :
    s.presentToWake h = s.withWku { s.wku with
      entries := Vector.ofFn (fun n : Fin 3 => (s.wakeEntry n).count h)
      wakeLatch := s.wku.wakeLatch || (List.finRange 3).any (fun n => (s.wakeEntry n).wakes h) } :=
  if_pos dozing

theorem wakeEntry_presentToWake {s : State} (dozing : s.wku.doze = true) (h : HeaderFields) (n : Fin 3) :
    (s.presentToWake h).wakeEntry n = (s.wakeEntry n).count h := by
  rw [presentToWake_dozing dozing]
  exact Vector.getElem_ofFn n.isLt

theorem wakeLatch_presentToWake {s : State} (dozing : s.wku.doze = true) (h : HeaderFields) :
    (s.presentToWake h).wku.wakeLatch = true ↔ s.wku.wakeLatch = true ∨ ∃ n, (s.wakeEntry n).wakes h = true := by
  rw [presentToWake_dozing dozing, withWku_wku, Bool.or_eq_true, List.any_eq_true]
  simp only [List.mem_finRange, true_and]

/-- Settles O49: nothing is presented awake; dozing, each entry by its match, the latch by the matches that wake, and
nothing else. -/
theorem wakeUnitCountsMatches : Obligations.WakeUnitCountsMatches := by
  intro s h
  refine ⟨fun awake => presentToWake_awake awake h, fun dozing => ?_⟩
  intro required kind matched t
  have matched_iff : ∀ n, matched n ↔ (s.wakeEntry n).hits h = true := fun n => (hits_iff (s.wakeEntry n) h).symm
  refine ⟨fun n => ⟨fun hit below => ?_, fun rest => ?_⟩, ?_, presentToWake_only s h⟩
  · exact (wakeEntry_presentToWake dozing h n).trans (count_of_hits ((matched_iff n).mp hit) below)
  · exact (wakeEntry_presentToWake dozing h n).trans (count_of_rest (rest.imp_left (mt (matched_iff n).mpr)))
  · refine (wakeLatch_presentToWake dozing h).trans (or_congr_right (exists_congr fun n => ?_))
    exact wakes_iff.trans (and_congr_left' (matched_iff n).symm)

/-! ## DOZE and RESUME (10 R165, R166) -/

@[simp] theorem wakeEntry_zeroCounters (s : State) (n : Fin 3) :
    s.zeroCounters.wakeEntry n = { s.wakeEntry n with counter := 0 } :=
  Vector.getElem_ofFn n.isLt

/-- Counters that stand at 0 stay as they are. -/
theorem zeroCounters_of_zero {s : State} (zero : ∀ n, (s.wakeEntry n).counter = 0) : s.zeroCounters = s := by
  have same : ∀ n, s.zeroCounters.wakeEntry n = s.wakeEntry n := fun n => by
    rw [wakeEntry_zeroCounters, ← zero n]
  have entries : s.zeroCounters.wku.entries = s.wku.entries := Vector.ext fun i hi => same ⟨i, hi⟩
  exact congrArg (fun entries => s.withWku { s.wku with entries := entries }) entries

theorem enterDoze_awake {s : State} (awake : s.wku.doze = false) :
    s.enterDoze = s.zeroCounters.withWku { s.zeroCounters.wku with doze := true } :=
  if_neg (Bool.eq_false_iff.mp awake)

theorem enterDoze_dozing {s : State} (dozing : s.wku.doze = true) : s.enterDoze = s := if_pos dozing

/-- RESUME finds the Wake Unit at rest and changes nothing (10 R166). -/
theorem leaveDoze_of_rests {s : State} (rests : s.WakeRests) (awake : s.wku.doze = false) : s.leaveDoze = s := by
  obtain ⟨latch, counters⟩ := rests awake
  rw [State.leaveDoze, zeroCounters_of_zero counters]
  exact congrArg₂ (fun doze latch => s.withWku { s.wku with doze := doze, wakeLatch := latch }) awake.symm latch.symm

/-- IRQ is inactive while the station dozes (09 R163). -/
theorem irq_dozing {s : State} (dozing : s.wku.doze = true) : s.irq = false := by
  rw [State.irq, dozing, Bool.not_true, Bool.and_false, Bool.false_and]

/-- IRQ follows the status flags while the station is awake (09 R163). -/
theorem irq_awake_iff {s : State} (awake : s.wku.doze = false) (hr : s.resetAsserted = false) :
    s.irq = true ↔ s.eventStatus ≠ 0 :=
  (irq_iff s).trans ⟨And.left, fun status => ⟨status, awake, hr⟩⟩

/-- Settles O14: DOZE awake and dozing, and RESUME. -/
theorem dozeAndResume : Obligations.DozeAndResume := by
  intro s hr
  refine ⟨fun awake => ?_, fun dozing => ?_, ?_⟩
  · have entered : (begun s false 0xC13).commandByte 0x11 = _ := enterDoze_awake awake
    refine ⟨_, congrArg Host.Outcome.next (portWrite_command hr entered rfl), rfl, irq_dozing rfl, ?_, rfl, rfl⟩
    exact wakeEntry_zeroCounters s
  · have kept : (begun s false 0xC13).commandByte 0x11 = _ := enterDoze_dozing dozing
    exact congrArg Host.Outcome.next (portWrite_command hr kept rfl)
  · have resumed : (begun s false 0xC13).commandByte 0x12 = (begun s false 0xC13).leaveDoze := rfl
    refine ⟨_, congrArg Host.Outcome.next (portWrite_command hr resumed rfl), rfl, rfl, ?_, ?_, ?_, rfl, ?_⟩
    · exact Bool.and_false _
    · exact wakeEntry_zeroCounters s
    · exact irq_awake_iff rfl hr
    · intro rests awake
      exact congrArg (·.wku) (leaveDoze_of_rests (s := begun s false 0xC13) rests awake)

end Sys2Proof.Laws
end

section
/-!
SUPPORT. The step on a queue that is not empty: the case of `step` beside `step_of_empty`.
-/

namespace Sys2Proof.Laws

open Sys2Proof.Machine

/-- The command at the front is taken from the queue before it runs. -/
theorem step_of_cons {s : State} {c : Instr} {rest : List Instr} (queue : s.pending = c :: rest) :
    step s = exec c { s with pending := rest } := by
  simp only [step, queue]

/-- Settles O1: it is the equation of `step` for a queue with a front. -/
theorem stepRunsTheFrontCommand : Obligations.StepRunsTheFrontCommand := fun _ _ _ queue => step_of_cons queue

end Sys2Proof.Laws
end
